-- ==== Sys2Proof/Word.lean ====
section
/-! DEFINITION. The bit-vector types of AA32 (00_scope.md R6, R11). A *word* is 16 bits, a *dword* 32 bits. -/

namespace Sys2Proof

/-- Half of a memory word. Only the representation of memory uses it (20_memory.md R81). -/
abbrev Byte := BitVec 8

/-- The smallest addressable unit of memory, 16 bits (00_scope.md R11, 20_memory.md R80). -/
abbrev Word := BitVec 16

/-- The width of a data register, of `pc` and of a status register, 32 bits (00_scope.md R6, R11). -/
abbrev Dword := BitVec 32

/-- A memory address: it counts 16-bit words, modulo 2^32 (20_memory.md R80). -/
abbrev Addr := BitVec 32

/-- An address in the status-register space (10_state.md R43). -/
abbrev SrAddr := BitVec 16

/-- An instruction, 42 bits (30_encoding.md R110). -/
abbrev InstrWord := BitVec 42

/-- The 8-bit opcode field (30_encoding.md R118). -/
abbrev Opcode := BitVec 8

end Sys2Proof
end

