-- ==== Sys2Proof/Syntax.lean ====
section
/-! DEFINITION. The instruction set of AA32: one constructor per row of the opcode table (30_encoding.md R120), with the
operands its format gives it (R111 to R116). A field the spec says an instruction ignores (R123) is no operand. -/

namespace Sys2Proof

/-- The number of a data register, `r0`..`r63` (10_state.md R34). -/
abbrev Reg := Fin 64

/-- The number of a predicate register, `p0`..`p7` (10_state.md R35). -/
abbrev Pred := Fin 8

/-- An instruction. `p` is the predicate selector of every instruction (30_encoding.md R118); `ul` is the bit `UL` and
`imm16`, `imm17` are the immediate fields, still as encoded (R125). In a store `dst` is the register stored (R114), in
`srw` the register written to the status register `sr` (R112). -/
inductive Instr where
  -- Add, subtract, logic: 40_arith_addsub_logic.md
  | add (p : Pred) (dst rs1 rs2 : Reg)  -- 01h, R160
  | adc (p : Pred) (dst rs1 rs2 : Reg)  -- 02h, R164
  | sub (p : Pred) (dst rs1 rs2 : Reg)  -- 03h, R168
  | suc (p : Pred) (dst rs1 rs2 : Reg)  -- 04h, R172
  | and (p : Pred) (dst rs1 rs2 : Reg)  -- 05h, R176
  | ior (p : Pred) (dst rs1 rs2 : Reg)  -- 06h, R180
  | xor (p : Pred) (dst rs1 rs2 : Reg)  -- 07h, R184
  | addi (p : Pred) (dst rs1 : Reg) (ul : Bool) (imm16 : BitVec 16)  -- 11h, R161
  | adci (p : Pred) (dst rs1 : Reg) (ul : Bool) (imm16 : BitVec 16)  -- 12h, R165
  | subi (p : Pred) (dst rs1 : Reg) (ul : Bool) (imm16 : BitVec 16)  -- 13h, R169
  | suci (p : Pred) (dst rs1 : Reg) (ul : Bool) (imm16 : BitVec 16)  -- 14h, R173
  | andi (p : Pred) (dst rs1 : Reg) (ul : Bool) (imm16 : BitVec 16)  -- 15h, R177
  | iori (p : Pred) (dst rs1 : Reg) (ul : Bool) (imm16 : BitVec 16)  -- 16h, R181
  | xori (p : Pred) (dst rs1 : Reg) (ul : Bool) (imm16 : BitVec 16)  -- 17h, R185
  | aadd (p : Pred) (dst rs1 rs2 : Reg)  -- 41h, R162
  | aadc (p : Pred) (dst rs1 rs2 : Reg)  -- 42h, R166
  | asub (p : Pred) (dst rs1 rs2 : Reg)  -- 43h, R170
  | asuc (p : Pred) (dst rs1 rs2 : Reg)  -- 44h, R174
  | aand (p : Pred) (dst rs1 rs2 : Reg)  -- 45h, R178
  | aior (p : Pred) (dst rs1 rs2 : Reg)  -- 46h, R182
  | axor (p : Pred) (dst rs1 rs2 : Reg)  -- 47h, R186
  | aaddi (p : Pred) (dst rs1 : Reg) (ul : Bool) (imm16 : BitVec 16)  -- 51h, R163
  | aadci (p : Pred) (dst rs1 : Reg) (ul : Bool) (imm16 : BitVec 16)  -- 52h, R167
  | asubi (p : Pred) (dst rs1 : Reg) (ul : Bool) (imm16 : BitVec 16)  -- 53h, R171
  | asuci (p : Pred) (dst rs1 : Reg) (ul : Bool) (imm16 : BitVec 16)  -- 54h, R175
  | aandi (p : Pred) (dst rs1 : Reg) (ul : Bool) (imm16 : BitVec 16)  -- 55h, R179
  | aiori (p : Pred) (dst rs1 : Reg) (ul : Bool) (imm16 : BitVec 16)  -- 56h, R183
  | axori (p : Pred) (dst rs1 : Reg) (ul : Bool) (imm16 : BitVec 16)  -- 57h, R187
  -- Shifts: 41_arith_shift.md
  | slc (p : Pred) (dst rs1 rs2 : Reg)  -- 08h, R205
  | sl (p : Pred) (dst rs1 rs2 : Reg)  -- 09h, R209
  | src (p : Pred) (dst rs1 rs2 : Reg)  -- 0Ah, R213
  | sr (p : Pred) (dst rs1 rs2 : Reg)  -- 0Bh, R217
  | sar (p : Pred) (dst rs1 rs2 : Reg)  -- 0Ch, R221
  | slci (p : Pred) (dst rs1 : Reg) (ul : Bool) (imm16 : BitVec 16)  -- 18h, R206
  | sli (p : Pred) (dst rs1 : Reg) (ul : Bool) (imm16 : BitVec 16)  -- 19h, R210
  | srci (p : Pred) (dst rs1 : Reg) (ul : Bool) (imm16 : BitVec 16)  -- 1Ah, R214
  | sri (p : Pred) (dst rs1 : Reg) (ul : Bool) (imm16 : BitVec 16)  -- 1Bh, R218
  | sari (p : Pred) (dst rs1 : Reg) (ul : Bool) (imm16 : BitVec 16)  -- 1Ch, R222
  | aslc (p : Pred) (dst rs1 rs2 : Reg)  -- 48h, R207
  | asl (p : Pred) (dst rs1 rs2 : Reg)  -- 49h, R211
  | asrc (p : Pred) (dst rs1 rs2 : Reg)  -- 4Ah, R215
  | asr (p : Pred) (dst rs1 rs2 : Reg)  -- 4Bh, R219
  | asar (p : Pred) (dst rs1 rs2 : Reg)  -- 4Ch, R223
  | aslci (p : Pred) (dst rs1 : Reg) (ul : Bool) (imm16 : BitVec 16)  -- 58h, R208
  | asli (p : Pred) (dst rs1 : Reg) (ul : Bool) (imm16 : BitVec 16)  -- 59h, R212
  | asrci (p : Pred) (dst rs1 : Reg) (ul : Bool) (imm16 : BitVec 16)  -- 5Ah, R216
  | asri (p : Pred) (dst rs1 : Reg) (ul : Bool) (imm16 : BitVec 16)  -- 5Bh, R220
  | asari (p : Pred) (dst rs1 : Reg) (ul : Bool) (imm16 : BitVec 16)  -- 5Ch, R224
  -- Multiply and divide: 42_arith_muldiv.md
  | mul (p : Pred) (dst rs1 rs2 : Reg)  -- 20h, R240
  | muls (p : Pred) (dst rs1 rs2 : Reg)  -- 21h, R244
  | div (p : Pred) (dst rs1 rs2 : Reg)  -- 22h, R248
  | divs (p : Pred) (dst rs1 rs2 : Reg)  -- 23h, R252
  | mulf (p : Pred) (dst rs1 rs2 : Reg)  -- 28h, R256
  | divf (p : Pred) (dst rs1 rs2 : Reg)  -- 29h, R260
  | muli (p : Pred) (dst rs1 : Reg) (ul : Bool) (imm16 : BitVec 16)  -- 30h, R241
  | mulsi (p : Pred) (dst rs1 : Reg) (ul : Bool) (imm16 : BitVec 16)  -- 31h, R245
  | divi (p : Pred) (dst rs1 : Reg) (ul : Bool) (imm16 : BitVec 16)  -- 32h, R249
  | divsi (p : Pred) (dst rs1 : Reg) (ul : Bool) (imm16 : BitVec 16)  -- 33h, R253
  | mulfi (p : Pred) (dst rs1 : Reg) (ul : Bool) (imm16 : BitVec 16)  -- 38h, R257
  | divfi (p : Pred) (dst rs1 : Reg) (ul : Bool) (imm16 : BitVec 16)  -- 39h, R261
  | amul (p : Pred) (dst rs1 rs2 : Reg)  -- 60h, R242
  | amuls (p : Pred) (dst rs1 rs2 : Reg)  -- 61h, R246
  | adiv (p : Pred) (dst rs1 rs2 : Reg)  -- 62h, R250
  | adivs (p : Pred) (dst rs1 rs2 : Reg)  -- 63h, R254
  | amulf (p : Pred) (dst rs1 rs2 : Reg)  -- 68h, R258
  | adivf (p : Pred) (dst rs1 rs2 : Reg)  -- 69h, R262
  | amuli (p : Pred) (dst rs1 : Reg) (ul : Bool) (imm16 : BitVec 16)  -- 70h, R243
  | amulsi (p : Pred) (dst rs1 : Reg) (ul : Bool) (imm16 : BitVec 16)  -- 71h, R247
  | adivi (p : Pred) (dst rs1 : Reg) (ul : Bool) (imm16 : BitVec 16)  -- 72h, R251
  | adivsi (p : Pred) (dst rs1 : Reg) (ul : Bool) (imm16 : BitVec 16)  -- 73h, R255
  | amulfi (p : Pred) (dst rs1 : Reg) (ul : Bool) (imm16 : BitVec 16)  -- 78h, R259
  | adivfi (p : Pred) (dst rs1 : Reg) (ul : Bool) (imm16 : BitVec 16)  -- 79h, R263
  -- Predicate instructions: 43_predicate.md
  | spc (p : Pred) (dstp : Pred)  -- B0h, R272
  | spnc (p : Pred) (dstp : Pred)  -- B1h, R273
  | spe (p : Pred) (dstp : Pred) (rs1 rs2 : Reg)  -- C0h, R274
  | spne (p : Pred) (dstp : Pred) (rs1 rs2 : Reg)  -- C1h, R275
  | spl (p : Pred) (dstp : Pred) (rs1 rs2 : Reg)  -- D0h, R276
  | spnl (p : Pred) (dstp : Pred) (rs1 rs2 : Reg)  -- D1h, R277
  | spg (p : Pred) (dstp : Pred) (rs1 rs2 : Reg)  -- E0h, R278
  | spng (p : Pred) (dstp : Pred) (rs1 rs2 : Reg)  -- E1h, R279
  | spt (p : Pred) (dstp : Pred)  -- F0h, R280
  | spf (p : Pred) (dstp : Pred)  -- F1h, R281
  -- Memory instructions: 44_memory_instr.md
  | ld (p : Pred) (dst rs1 : Reg) (imm17 : BitVec 17)  -- 80h, R295
  | ldu (p : Pred) (dst rs1 : Reg) (imm17 : BitVec 17)  -- 81h, R296
  | lds (p : Pred) (dst rs1 : Reg) (imm17 : BitVec 17)  -- 82h, R297
  | pop (p : Pred) (dst rs1 : Reg) (imm17 : BitVec 17)  -- 83h, R298
  | str (p : Pred) (dst rs1 : Reg) (imm17 : BitVec 17)  -- 88h, R299
  | stu (p : Pred) (dst rs1 : Reg) (imm17 : BitVec 17)  -- 89h, R300
  | sts (p : Pred) (dst rs1 : Reg) (imm17 : BitVec 17)  -- 8Ah, R301
  | push (p : Pred) (dst rs1 : Reg) (imm17 : BitVec 17)  -- 8Bh, R302
  | ald (p : Pred) (dst rs1 : Reg) (imm17 : BitVec 17)  -- 90h, R303
  | aldu (p : Pred) (dst rs1 : Reg) (imm17 : BitVec 17)  -- 91h, R304
  | alds (p : Pred) (dst rs1 : Reg) (imm17 : BitVec 17)  -- 92h, R305
  | apop (p : Pred) (dst rs1 : Reg) (imm17 : BitVec 17)  -- 93h, R306
  -- Branches: 45_branch.md
  | brc (p : Pred) (imm17 : BitVec 17)  -- B2h, R321
  | brnc (p : Pred) (imm17 : BitVec 17)  -- B3h, R322
  | bre (p : Pred) (rs1 rs2 : Reg) (imm17 : BitVec 17)  -- C2h, R323
  | brne (p : Pred) (rs1 rs2 : Reg) (imm17 : BitVec 17)  -- C3h, R324
  | brl (p : Pred) (rs1 rs2 : Reg) (imm17 : BitVec 17)  -- D2h, R325
  | brnl (p : Pred) (rs1 rs2 : Reg) (imm17 : BitVec 17)  -- D3h, R326
  | brg (p : Pred) (rs1 rs2 : Reg) (imm17 : BitVec 17)  -- E2h, R327
  | brng (p : Pred) (rs1 rs2 : Reg) (imm17 : BitVec 17)  -- E3h, R328
  | br (p : Pred) (imm17 : BitVec 17)  -- F2h, R329
  -- Jumps: 46_jump.md
  | jmp (p : Pred) (rs1 : Reg) (imm17 : BitVec 17)  -- FDh, R341
  | jr (p : Pred) (rs1 : Reg) (imm17 : BitVec 17)  -- FEh, R342
  | iret (p : Pred)  -- FFh, R343
  -- Comparisons: 47_compare.md
  | se (p : Pred) (dst rs1 rs2 : Reg)  -- C4h, R352
  | sne (p : Pred) (dst rs1 rs2 : Reg)  -- C5h, R353
  | sei (p : Pred) (dst rs1 : Reg) (ul : Bool) (imm16 : BitVec 16)  -- C6h, R354
  | snei (p : Pred) (dst rs1 : Reg) (ul : Bool) (imm16 : BitVec 16)  -- C7h, R355
  | slt (p : Pred) (dst rs1 rs2 : Reg)  -- D4h, R356
  | snlt (p : Pred) (dst rs1 rs2 : Reg)  -- D5h, R357
  | slti (p : Pred) (dst rs1 : Reg) (ul : Bool) (imm16 : BitVec 16)  -- D6h, R358
  | snlti (p : Pred) (dst rs1 : Reg) (ul : Bool) (imm16 : BitVec 16)  -- D7h, R359
  | sgt (p : Pred) (dst rs1 rs2 : Reg)  -- E4h, R360
  | sngt (p : Pred) (dst rs1 rs2 : Reg)  -- E5h, R361
  | sgti (p : Pred) (dst rs1 : Reg) (ul : Bool) (imm16 : BitVec 16)  -- E6h, R362
  | sngti (p : Pred) (dst rs1 : Reg) (ul : Bool) (imm16 : BitVec 16)  -- E7h, R363
  | set (p : Pred) (dst : Reg)  -- F4h, R364
  | clr (p : Pred) (dst : Reg)  -- F5h, R365
  -- Miscellaneous and system: 48_misc_system.md
  | nop (p : Pred)  -- 00h, R370
  | srr (p : Pred) (dst : Reg) (sr : SrAddr)  -- A0h, R371
  | srw (p : Pred) (dst : Reg) (sr : SrAddr)  -- A1h, R372
  | trap (p : Pred) (imm16 : BitVec 16)  -- A2h, R373
  deriving DecidableEq, Repr

/-- The predicate selector, the field `P` of every format (30_encoding.md R118). -/
def Instr.predicate (i : Instr) : Pred :=
  match i with
  | .nop p => p
  | .add p _ _ _ => p
  | .adc p _ _ _ => p
  | .sub p _ _ _ => p
  | .suc p _ _ _ => p
  | .and p _ _ _ => p
  | .ior p _ _ _ => p
  | .xor p _ _ _ => p
  | .slc p _ _ _ => p
  | .sl p _ _ _ => p
  | .src p _ _ _ => p
  | .sr p _ _ _ => p
  | .sar p _ _ _ => p
  | .addi p _ _ _ _ => p
  | .adci p _ _ _ _ => p
  | .subi p _ _ _ _ => p
  | .suci p _ _ _ _ => p
  | .andi p _ _ _ _ => p
  | .iori p _ _ _ _ => p
  | .xori p _ _ _ _ => p
  | .slci p _ _ _ _ => p
  | .sli p _ _ _ _ => p
  | .srci p _ _ _ _ => p
  | .sri p _ _ _ _ => p
  | .sari p _ _ _ _ => p
  | .mul p _ _ _ => p
  | .muls p _ _ _ => p
  | .div p _ _ _ => p
  | .divs p _ _ _ => p
  | .mulf p _ _ _ => p
  | .divf p _ _ _ => p
  | .muli p _ _ _ _ => p
  | .mulsi p _ _ _ _ => p
  | .divi p _ _ _ _ => p
  | .divsi p _ _ _ _ => p
  | .mulfi p _ _ _ _ => p
  | .divfi p _ _ _ _ => p
  | .aadd p _ _ _ => p
  | .aadc p _ _ _ => p
  | .asub p _ _ _ => p
  | .asuc p _ _ _ => p
  | .aand p _ _ _ => p
  | .aior p _ _ _ => p
  | .axor p _ _ _ => p
  | .aslc p _ _ _ => p
  | .asl p _ _ _ => p
  | .asrc p _ _ _ => p
  | .asr p _ _ _ => p
  | .asar p _ _ _ => p
  | .aaddi p _ _ _ _ => p
  | .aadci p _ _ _ _ => p
  | .asubi p _ _ _ _ => p
  | .asuci p _ _ _ _ => p
  | .aandi p _ _ _ _ => p
  | .aiori p _ _ _ _ => p
  | .axori p _ _ _ _ => p
  | .aslci p _ _ _ _ => p
  | .asli p _ _ _ _ => p
  | .asrci p _ _ _ _ => p
  | .asri p _ _ _ _ => p
  | .asari p _ _ _ _ => p
  | .amul p _ _ _ => p
  | .amuls p _ _ _ => p
  | .adiv p _ _ _ => p
  | .adivs p _ _ _ => p
  | .amulf p _ _ _ => p
  | .adivf p _ _ _ => p
  | .amuli p _ _ _ _ => p
  | .amulsi p _ _ _ _ => p
  | .adivi p _ _ _ _ => p
  | .adivsi p _ _ _ _ => p
  | .amulfi p _ _ _ _ => p
  | .adivfi p _ _ _ _ => p
  | .ld p _ _ _ => p
  | .ldu p _ _ _ => p
  | .lds p _ _ _ => p
  | .pop p _ _ _ => p
  | .str p _ _ _ => p
  | .stu p _ _ _ => p
  | .sts p _ _ _ => p
  | .push p _ _ _ => p
  | .ald p _ _ _ => p
  | .aldu p _ _ _ => p
  | .alds p _ _ _ => p
  | .apop p _ _ _ => p
  | .srr p _ _ => p
  | .srw p _ _ => p
  | .trap p _ => p
  | .spc p _ => p
  | .spnc p _ => p
  | .brc p _ => p
  | .brnc p _ => p
  | .spe p _ _ _ => p
  | .spne p _ _ _ => p
  | .bre p _ _ _ => p
  | .brne p _ _ _ => p
  | .se p _ _ _ => p
  | .sne p _ _ _ => p
  | .sei p _ _ _ _ => p
  | .snei p _ _ _ _ => p
  | .spl p _ _ _ => p
  | .spnl p _ _ _ => p
  | .brl p _ _ _ => p
  | .brnl p _ _ _ => p
  | .slt p _ _ _ => p
  | .snlt p _ _ _ => p
  | .slti p _ _ _ _ => p
  | .snlti p _ _ _ _ => p
  | .spg p _ _ _ => p
  | .spng p _ _ _ => p
  | .brg p _ _ _ => p
  | .brng p _ _ _ => p
  | .sgt p _ _ _ => p
  | .sngt p _ _ _ => p
  | .sgti p _ _ _ _ => p
  | .sngti p _ _ _ _ => p
  | .spt p _ => p
  | .spf p _ => p
  | .br p _ => p
  | .set p _ => p
  | .clr p _ => p
  | .jmp p _ _ => p
  | .jr p _ _ => p
  | .iret p => p

end Sys2Proof
end

