-- ==== Sys2Proof/Decode.lean ====
section
/-! DEFINITION. The decoder and the encoder, from the encoding tables of 30_encoding.md. -/

namespace Sys2Proof

/-! ### The 42 bits of an instruction from the words that hold it -/

/-- The instruction that the two dwords of a fetch hold: `hi[9:0] : lo` (20_memory.md R83, R88). The upper 22 bits of
`hi` are discarded (30_encoding.md R110). -/
def instrOfDwords (lo hi : Dword) : InstrWord := hi.extractLsb' 0 10 ++ lo

/-! ### Fields (30_encoding.md R111 to R116) -/

/-- `OP`, bits 7:0 of every format. -/
def opcodeField (w : InstrWord) : Opcode := w.extractLsb' 0 8

/-- `P`, bits 10:8 of every format. -/
def predField (w : InstrWord) : Pred := (w.extractLsb' 8 3).toFin

/-- The register number at bits 16:11: `dst` of formats R, I, M; `rs1` of formats B, J. -/
def regField11 (w : InstrWord) : Reg := (w.extractLsb' 11 6).toFin

/-- The register number at bits 23:18: `rs1` of formats R, I, P, M; `rs2` of format B. -/
def regField18 (w : InstrWord) : Reg := (w.extractLsb' 18 6).toFin

/-- The register number at bits 30:25: `rs2` of formats R, P. -/
def regField25 (w : InstrWord) : Reg := (w.extractLsb' 25 6).toFin

/-- `dstp`, bits 13:11 of format P. -/
def dstpField (w : InstrWord) : Pred := (w.extractLsb' 11 3).toFin

/-- `UL`, bit 25 of format I. -/
def ulField (w : InstrWord) : Bool := w.getLsbD 25

/-- `imm16`, bits 41:26 of format I. -/
def imm16Field (w : InstrWord) : BitVec 16 := w.extractLsb' 26 16

/-- `imm17`, bits 41:25 of formats M, B, J. -/
def imm17Field (w : InstrWord) : BitVec 17 := w.extractLsb' 25 17

/-! ### One decoder per operand list; the bits it does not read are ignored (30_encoding.md R117, R123) -/

/-- No operand but the predicate: `nop`, `iret`. -/
def decNone (mk : Pred → Instr) (w : InstrWord) : Instr := mk (predField w)

/-- Format R with `dst` alone: `set`, `clr`. -/
def decDst (mk : Pred → Reg → Instr) (w : InstrWord) : Instr := mk (predField w) (regField11 w)

/-- Format R (R111). -/
def decR (mk : Pred → Reg → Reg → Reg → Instr) (w : InstrWord) : Instr :=
  mk (predField w) (regField11 w) (regField18 w) (regField25 w)

/-- Format I (R112). -/
def decI (mk : Pred → Reg → Reg → Bool → BitVec 16 → Instr) (w : InstrWord) : Instr :=
  mk (predField w) (regField11 w) (regField18 w) (ulField w) (imm16Field w)

/-- Format I of `srr`, `srw`: `rs1` and `UL` ignored. -/
def decSr (mk : Pred → Reg → SrAddr → Instr) (w : InstrWord) : Instr :=
  mk (predField w) (regField11 w) (imm16Field w)

/-- Format I of `trap`: `rs1`, `UL`, `dst` ignored. -/
def decImm16 (mk : Pred → BitVec 16 → Instr) (w : InstrWord) : Instr := mk (predField w) (imm16Field w)

/-- Format P (R113). -/
def decP (mk : Pred → Pred → Reg → Reg → Instr) (w : InstrWord) : Instr :=
  mk (predField w) (dstpField w) (regField18 w) (regField25 w)

/-- Format P with `dstp` alone: `spc`, `spnc`, `spt`, `spf`. -/
def decDstp (mk : Pred → Pred → Instr) (w : InstrWord) : Instr := mk (predField w) (dstpField w)

/-- Format M (R114). -/
def decM (mk : Pred → Reg → Reg → BitVec 17 → Instr) (w : InstrWord) : Instr :=
  mk (predField w) (regField11 w) (regField18 w) (imm17Field w)

/-- Format B (R115): `rs1` stands at bits 16:11 and `rs2` at bits 23:18. -/
def decB (mk : Pred → Reg → Reg → BitVec 17 → Instr) (w : InstrWord) : Instr :=
  mk (predField w) (regField11 w) (regField18 w) (imm17Field w)

/-- Format B with the offset alone: `brc`, `brnc`, `br`. -/
def decImm17 (mk : Pred → BitVec 17 → Instr) (w : InstrWord) : Instr := mk (predField w) (imm17Field w)

/-- Format J (R116). -/
def decJ (mk : Pred → Reg → BitVec 17 → Instr) (w : InstrWord) : Instr :=
  mk (predField w) (regField11 w) (imm17Field w)

/-! ### The opcode map -/

/-- Row 0 of the opcode map (30_encoding.md R120). -/
def opcodeRow0 : List (Opcode × (InstrWord → Instr)) :=
  [(0x00, decNone .nop), (0x01, decR .add), (0x02, decR .adc), (0x03, decR .sub), (0x04, decR .suc),
   (0x05, decR .and), (0x06, decR .ior), (0x07, decR .xor), (0x08, decR .slc), (0x09, decR .sl),
   (0x0A, decR .src), (0x0B, decR .sr), (0x0C, decR .sar)]

/-- Row 1 of the opcode map (30_encoding.md R120). -/
def opcodeRow1 : List (Opcode × (InstrWord → Instr)) :=
  [(0x11, decI .addi), (0x12, decI .adci), (0x13, decI .subi), (0x14, decI .suci), (0x15, decI .andi),
   (0x16, decI .iori), (0x17, decI .xori), (0x18, decI .slci), (0x19, decI .sli), (0x1A, decI .srci),
   (0x1B, decI .sri), (0x1C, decI .sari)]

/-- Row 2 of the opcode map (30_encoding.md R120). -/
def opcodeRow2 : List (Opcode × (InstrWord → Instr)) :=
  [(0x20, decR .mul), (0x21, decR .muls), (0x22, decR .div), (0x23, decR .divs), (0x28, decR .mulf),
   (0x29, decR .divf)]

/-- Row 3 of the opcode map (30_encoding.md R120). -/
def opcodeRow3 : List (Opcode × (InstrWord → Instr)) :=
  [(0x30, decI .muli), (0x31, decI .mulsi), (0x32, decI .divi), (0x33, decI .divsi), (0x38, decI .mulfi),
   (0x39, decI .divfi)]

/-- Row 4 of the opcode map (30_encoding.md R120). -/
def opcodeRow4 : List (Opcode × (InstrWord → Instr)) :=
  [(0x41, decR .aadd), (0x42, decR .aadc), (0x43, decR .asub), (0x44, decR .asuc), (0x45, decR .aand),
   (0x46, decR .aior), (0x47, decR .axor), (0x48, decR .aslc), (0x49, decR .asl), (0x4A, decR .asrc),
   (0x4B, decR .asr), (0x4C, decR .asar)]

/-- Row 5 of the opcode map (30_encoding.md R120). -/
def opcodeRow5 : List (Opcode × (InstrWord → Instr)) :=
  [(0x51, decI .aaddi), (0x52, decI .aadci), (0x53, decI .asubi), (0x54, decI .asuci), (0x55, decI .aandi),
   (0x56, decI .aiori), (0x57, decI .axori), (0x58, decI .aslci), (0x59, decI .asli), (0x5A, decI .asrci),
   (0x5B, decI .asri), (0x5C, decI .asari)]

/-- Row 6 of the opcode map (30_encoding.md R120). -/
def opcodeRow6 : List (Opcode × (InstrWord → Instr)) :=
  [(0x60, decR .amul), (0x61, decR .amuls), (0x62, decR .adiv), (0x63, decR .adivs), (0x68, decR .amulf),
   (0x69, decR .adivf)]

/-- Row 7 of the opcode map (30_encoding.md R120). -/
def opcodeRow7 : List (Opcode × (InstrWord → Instr)) :=
  [(0x70, decI .amuli), (0x71, decI .amulsi), (0x72, decI .adivi), (0x73, decI .adivsi), (0x78, decI .amulfi),
   (0x79, decI .adivfi)]

/-- Row 8 of the opcode map (30_encoding.md R120). -/
def opcodeRow8 : List (Opcode × (InstrWord → Instr)) :=
  [(0x80, decM .ld), (0x81, decM .ldu), (0x82, decM .lds), (0x83, decM .pop), (0x88, decM .str),
   (0x89, decM .stu), (0x8A, decM .sts), (0x8B, decM .push)]

/-- Row 9 of the opcode map (30_encoding.md R120). -/
def opcodeRow9 : List (Opcode × (InstrWord → Instr)) :=
  [(0x90, decM .ald), (0x91, decM .aldu), (0x92, decM .alds), (0x93, decM .apop)]

/-- Row A of the opcode map (30_encoding.md R120). -/
def opcodeRowA : List (Opcode × (InstrWord → Instr)) :=
  [(0xA0, decSr .srr), (0xA1, decSr .srw), (0xA2, decImm16 .trap)]

/-- Row B of the opcode map (30_encoding.md R120). -/
def opcodeRowB : List (Opcode × (InstrWord → Instr)) :=
  [(0xB0, decDstp .spc), (0xB1, decDstp .spnc), (0xB2, decImm17 .brc), (0xB3, decImm17 .brnc)]

/-- Row C of the opcode map (30_encoding.md R120). -/
def opcodeRowC : List (Opcode × (InstrWord → Instr)) :=
  [(0xC0, decP .spe), (0xC1, decP .spne), (0xC2, decB .bre), (0xC3, decB .brne), (0xC4, decR .se),
   (0xC5, decR .sne), (0xC6, decI .sei), (0xC7, decI .snei)]

/-- Row D of the opcode map (30_encoding.md R120). -/
def opcodeRowD : List (Opcode × (InstrWord → Instr)) :=
  [(0xD0, decP .spl), (0xD1, decP .spnl), (0xD2, decB .brl), (0xD3, decB .brnl), (0xD4, decR .slt),
   (0xD5, decR .snlt), (0xD6, decI .slti), (0xD7, decI .snlti)]

/-- Row E of the opcode map (30_encoding.md R120). -/
def opcodeRowE : List (Opcode × (InstrWord → Instr)) :=
  [(0xE0, decP .spg), (0xE1, decP .spng), (0xE2, decB .brg), (0xE3, decB .brng), (0xE4, decR .sgt),
   (0xE5, decR .sngt), (0xE6, decI .sgti), (0xE7, decI .sngti)]

/-- Row F of the opcode map (30_encoding.md R120). -/
def opcodeRowF : List (Opcode × (InstrWord → Instr)) :=
  [(0xF0, decDstp .spt), (0xF1, decDstp .spf), (0xF2, decImm17 .br), (0xF4, decDst .set), (0xF5, decDst .clr),
   (0xFD, decJ .jmp), (0xFE, decJ .jr), (0xFF, decNone .iret)]

/-- The opcode map: the 124 assigned opcodes (30_encoding.md R120). -/
def opcodeMap : List (Opcode × (InstrWord → Instr)) :=
  opcodeRow0 ++ opcodeRow1 ++ opcodeRow2 ++ opcodeRow3 ++ opcodeRow4 ++ opcodeRow5 ++
  opcodeRow6 ++ opcodeRow7 ++ opcodeRow8 ++ opcodeRow9 ++ opcodeRowA ++ opcodeRowB ++
  opcodeRowC ++ opcodeRowD ++ opcodeRowE ++ opcodeRowF

/-- What decoding answers. -/
inductive Decoded where
  /-- The word is this instruction. -/
  | instr (i : Instr)
  /-- The opcode is one of the 132 unassigned ones, to which the spec gives no meaning (30_encoding.md R122). -/
  | unassigned (op : Opcode)
  deriving DecidableEq, Repr

/-- Decode the opcode `op` of the word `w`. -/
def decodeOpcode (op : Opcode) (w : InstrWord) : Decoded :=
  match opcodeMap.lookup op with
  | some mk => .instr (mk w)
  | none => .unassigned op

/-- The decoder, total on 42-bit words: the opcode alone selects the instruction (30_encoding.md R120, R129), and an
unassigned opcode is rejected whatever the predicate (R122). -/
def decode (w : InstrWord) : Decoded := decodeOpcode (opcodeField w) w

/-- The four memory words that hold an instruction numbered as the opcode table numbers it (20_memory.md R83): bit 0 of
`w` is bit 0 of the first word, and bits from `nbits` on are 0. -/
def tableWords (nbits w : Nat) : Word × Word × Word × Word :=
  let v := w % 2 ^ nbits
  (BitVec.ofNat 16 v, BitVec.ofNat 16 (v / 2 ^ 16), BitVec.ofNat 16 (v / 2 ^ 32), BitVec.ofNat 16 (v / 2 ^ 48))

/-- What the decoder reads from an instruction of the opcode table laid out in memory words (the host's interface). -/
def decodeTableWord (nbits w : Nat) : Option Instr :=
  match tableWords nbits w with
  | (w0, w1, w2, w3) =>
    match decode (instrOfDwords (w1 ++ w0) (w3 ++ w2)) with
    | .instr i => some i
    | .unassigned _ => none

/-! ### The encoder -/

/-- Format R (30_encoding.md R111). -/
def encR (op : Opcode) (p : Pred) (dst rs1 rs2 : Reg) : InstrWord :=
  0#11 ++ BitVec.ofFin (w := 6) rs2 ++ 0#1 ++ BitVec.ofFin (w := 6) rs1 ++ 0#1 ++ BitVec.ofFin (w := 6) dst ++
    BitVec.ofFin (w := 3) p ++ op

/-- Format I (30_encoding.md R112). -/
def encI (op : Opcode) (p : Pred) (dst rs1 : Reg) (ul : Bool) (imm16 : BitVec 16) : InstrWord :=
  imm16 ++ BitVec.ofBool ul ++ 0#1 ++ BitVec.ofFin (w := 6) rs1 ++ 0#1 ++ BitVec.ofFin (w := 6) dst ++
    BitVec.ofFin (w := 3) p ++ op

/-- Format P (30_encoding.md R113). -/
def encP (op : Opcode) (p dstp : Pred) (rs1 rs2 : Reg) : InstrWord :=
  0#11 ++ BitVec.ofFin (w := 6) rs2 ++ 0#1 ++ BitVec.ofFin (w := 6) rs1 ++ 0#4 ++ BitVec.ofFin (w := 3) dstp ++
    BitVec.ofFin (w := 3) p ++ op

/-- Format M (30_encoding.md R114). -/
def encM (op : Opcode) (p : Pred) (dst rs1 : Reg) (imm17 : BitVec 17) : InstrWord :=
  imm17 ++ 0#1 ++ BitVec.ofFin (w := 6) rs1 ++ 0#1 ++ BitVec.ofFin (w := 6) dst ++ BitVec.ofFin (w := 3) p ++ op

/-- Format B (30_encoding.md R115): `rs1` at bits 16:11, `rs2` at bits 23:18. -/
def encB (op : Opcode) (p : Pred) (rs1 rs2 : Reg) (imm17 : BitVec 17) : InstrWord :=
  imm17 ++ 0#1 ++ BitVec.ofFin (w := 6) rs2 ++ 0#1 ++ BitVec.ofFin (w := 6) rs1 ++ BitVec.ofFin (w := 3) p ++ op

/-- Format J (30_encoding.md R116). -/
def encJ (op : Opcode) (p : Pred) (rs1 : Reg) (imm17 : BitVec 17) : InstrWord :=
  imm17 ++ 0#8 ++ BitVec.ofFin (w := 6) rs1 ++ BitVec.ofFin (w := 3) p ++ op

/-- The 42-bit word of an instruction, with 0 in every unused or ignored bit (30_encoding.md R111 to R117, R123). -/
def encode (i : Instr) : InstrWord :=
  match i with
  | .nop p => encR 0x00 p 0 0 0
  | .add p dst rs1 rs2 => encR 0x01 p dst rs1 rs2
  | .adc p dst rs1 rs2 => encR 0x02 p dst rs1 rs2
  | .sub p dst rs1 rs2 => encR 0x03 p dst rs1 rs2
  | .suc p dst rs1 rs2 => encR 0x04 p dst rs1 rs2
  | .and p dst rs1 rs2 => encR 0x05 p dst rs1 rs2
  | .ior p dst rs1 rs2 => encR 0x06 p dst rs1 rs2
  | .xor p dst rs1 rs2 => encR 0x07 p dst rs1 rs2
  | .slc p dst rs1 rs2 => encR 0x08 p dst rs1 rs2
  | .sl p dst rs1 rs2 => encR 0x09 p dst rs1 rs2
  | .src p dst rs1 rs2 => encR 0x0A p dst rs1 rs2
  | .sr p dst rs1 rs2 => encR 0x0B p dst rs1 rs2
  | .sar p dst rs1 rs2 => encR 0x0C p dst rs1 rs2
  | .addi p dst rs1 ul imm16 => encI 0x11 p dst rs1 ul imm16
  | .adci p dst rs1 ul imm16 => encI 0x12 p dst rs1 ul imm16
  | .subi p dst rs1 ul imm16 => encI 0x13 p dst rs1 ul imm16
  | .suci p dst rs1 ul imm16 => encI 0x14 p dst rs1 ul imm16
  | .andi p dst rs1 ul imm16 => encI 0x15 p dst rs1 ul imm16
  | .iori p dst rs1 ul imm16 => encI 0x16 p dst rs1 ul imm16
  | .xori p dst rs1 ul imm16 => encI 0x17 p dst rs1 ul imm16
  | .slci p dst rs1 ul imm16 => encI 0x18 p dst rs1 ul imm16
  | .sli p dst rs1 ul imm16 => encI 0x19 p dst rs1 ul imm16
  | .srci p dst rs1 ul imm16 => encI 0x1A p dst rs1 ul imm16
  | .sri p dst rs1 ul imm16 => encI 0x1B p dst rs1 ul imm16
  | .sari p dst rs1 ul imm16 => encI 0x1C p dst rs1 ul imm16
  | .mul p dst rs1 rs2 => encR 0x20 p dst rs1 rs2
  | .muls p dst rs1 rs2 => encR 0x21 p dst rs1 rs2
  | .div p dst rs1 rs2 => encR 0x22 p dst rs1 rs2
  | .divs p dst rs1 rs2 => encR 0x23 p dst rs1 rs2
  | .mulf p dst rs1 rs2 => encR 0x28 p dst rs1 rs2
  | .divf p dst rs1 rs2 => encR 0x29 p dst rs1 rs2
  | .muli p dst rs1 ul imm16 => encI 0x30 p dst rs1 ul imm16
  | .mulsi p dst rs1 ul imm16 => encI 0x31 p dst rs1 ul imm16
  | .divi p dst rs1 ul imm16 => encI 0x32 p dst rs1 ul imm16
  | .divsi p dst rs1 ul imm16 => encI 0x33 p dst rs1 ul imm16
  | .mulfi p dst rs1 ul imm16 => encI 0x38 p dst rs1 ul imm16
  | .divfi p dst rs1 ul imm16 => encI 0x39 p dst rs1 ul imm16
  | .aadd p dst rs1 rs2 => encR 0x41 p dst rs1 rs2
  | .aadc p dst rs1 rs2 => encR 0x42 p dst rs1 rs2
  | .asub p dst rs1 rs2 => encR 0x43 p dst rs1 rs2
  | .asuc p dst rs1 rs2 => encR 0x44 p dst rs1 rs2
  | .aand p dst rs1 rs2 => encR 0x45 p dst rs1 rs2
  | .aior p dst rs1 rs2 => encR 0x46 p dst rs1 rs2
  | .axor p dst rs1 rs2 => encR 0x47 p dst rs1 rs2
  | .aslc p dst rs1 rs2 => encR 0x48 p dst rs1 rs2
  | .asl p dst rs1 rs2 => encR 0x49 p dst rs1 rs2
  | .asrc p dst rs1 rs2 => encR 0x4A p dst rs1 rs2
  | .asr p dst rs1 rs2 => encR 0x4B p dst rs1 rs2
  | .asar p dst rs1 rs2 => encR 0x4C p dst rs1 rs2
  | .aaddi p dst rs1 ul imm16 => encI 0x51 p dst rs1 ul imm16
  | .aadci p dst rs1 ul imm16 => encI 0x52 p dst rs1 ul imm16
  | .asubi p dst rs1 ul imm16 => encI 0x53 p dst rs1 ul imm16
  | .asuci p dst rs1 ul imm16 => encI 0x54 p dst rs1 ul imm16
  | .aandi p dst rs1 ul imm16 => encI 0x55 p dst rs1 ul imm16
  | .aiori p dst rs1 ul imm16 => encI 0x56 p dst rs1 ul imm16
  | .axori p dst rs1 ul imm16 => encI 0x57 p dst rs1 ul imm16
  | .aslci p dst rs1 ul imm16 => encI 0x58 p dst rs1 ul imm16
  | .asli p dst rs1 ul imm16 => encI 0x59 p dst rs1 ul imm16
  | .asrci p dst rs1 ul imm16 => encI 0x5A p dst rs1 ul imm16
  | .asri p dst rs1 ul imm16 => encI 0x5B p dst rs1 ul imm16
  | .asari p dst rs1 ul imm16 => encI 0x5C p dst rs1 ul imm16
  | .amul p dst rs1 rs2 => encR 0x60 p dst rs1 rs2
  | .amuls p dst rs1 rs2 => encR 0x61 p dst rs1 rs2
  | .adiv p dst rs1 rs2 => encR 0x62 p dst rs1 rs2
  | .adivs p dst rs1 rs2 => encR 0x63 p dst rs1 rs2
  | .amulf p dst rs1 rs2 => encR 0x68 p dst rs1 rs2
  | .adivf p dst rs1 rs2 => encR 0x69 p dst rs1 rs2
  | .amuli p dst rs1 ul imm16 => encI 0x70 p dst rs1 ul imm16
  | .amulsi p dst rs1 ul imm16 => encI 0x71 p dst rs1 ul imm16
  | .adivi p dst rs1 ul imm16 => encI 0x72 p dst rs1 ul imm16
  | .adivsi p dst rs1 ul imm16 => encI 0x73 p dst rs1 ul imm16
  | .amulfi p dst rs1 ul imm16 => encI 0x78 p dst rs1 ul imm16
  | .adivfi p dst rs1 ul imm16 => encI 0x79 p dst rs1 ul imm16
  | .ld p dst rs1 imm17 => encM 0x80 p dst rs1 imm17
  | .ldu p dst rs1 imm17 => encM 0x81 p dst rs1 imm17
  | .lds p dst rs1 imm17 => encM 0x82 p dst rs1 imm17
  | .pop p dst rs1 imm17 => encM 0x83 p dst rs1 imm17
  | .str p dst rs1 imm17 => encM 0x88 p dst rs1 imm17
  | .stu p dst rs1 imm17 => encM 0x89 p dst rs1 imm17
  | .sts p dst rs1 imm17 => encM 0x8A p dst rs1 imm17
  | .push p dst rs1 imm17 => encM 0x8B p dst rs1 imm17
  | .ald p dst rs1 imm17 => encM 0x90 p dst rs1 imm17
  | .aldu p dst rs1 imm17 => encM 0x91 p dst rs1 imm17
  | .alds p dst rs1 imm17 => encM 0x92 p dst rs1 imm17
  | .apop p dst rs1 imm17 => encM 0x93 p dst rs1 imm17
  | .srr p dst sr => encI 0xA0 p dst 0 false sr
  | .srw p dst sr => encI 0xA1 p dst 0 false sr
  | .trap p imm16 => encI 0xA2 p 0 0 false imm16
  | .spc p dstp => encP 0xB0 p dstp 0 0
  | .spnc p dstp => encP 0xB1 p dstp 0 0
  | .brc p imm17 => encB 0xB2 p 0 0 imm17
  | .brnc p imm17 => encB 0xB3 p 0 0 imm17
  | .spe p dstp rs1 rs2 => encP 0xC0 p dstp rs1 rs2
  | .spne p dstp rs1 rs2 => encP 0xC1 p dstp rs1 rs2
  | .bre p rs1 rs2 imm17 => encB 0xC2 p rs1 rs2 imm17
  | .brne p rs1 rs2 imm17 => encB 0xC3 p rs1 rs2 imm17
  | .se p dst rs1 rs2 => encR 0xC4 p dst rs1 rs2
  | .sne p dst rs1 rs2 => encR 0xC5 p dst rs1 rs2
  | .sei p dst rs1 ul imm16 => encI 0xC6 p dst rs1 ul imm16
  | .snei p dst rs1 ul imm16 => encI 0xC7 p dst rs1 ul imm16
  | .spl p dstp rs1 rs2 => encP 0xD0 p dstp rs1 rs2
  | .spnl p dstp rs1 rs2 => encP 0xD1 p dstp rs1 rs2
  | .brl p rs1 rs2 imm17 => encB 0xD2 p rs1 rs2 imm17
  | .brnl p rs1 rs2 imm17 => encB 0xD3 p rs1 rs2 imm17
  | .slt p dst rs1 rs2 => encR 0xD4 p dst rs1 rs2
  | .snlt p dst rs1 rs2 => encR 0xD5 p dst rs1 rs2
  | .slti p dst rs1 ul imm16 => encI 0xD6 p dst rs1 ul imm16
  | .snlti p dst rs1 ul imm16 => encI 0xD7 p dst rs1 ul imm16
  | .spg p dstp rs1 rs2 => encP 0xE0 p dstp rs1 rs2
  | .spng p dstp rs1 rs2 => encP 0xE1 p dstp rs1 rs2
  | .brg p rs1 rs2 imm17 => encB 0xE2 p rs1 rs2 imm17
  | .brng p rs1 rs2 imm17 => encB 0xE3 p rs1 rs2 imm17
  | .sgt p dst rs1 rs2 => encR 0xE4 p dst rs1 rs2
  | .sngt p dst rs1 rs2 => encR 0xE5 p dst rs1 rs2
  | .sgti p dst rs1 ul imm16 => encI 0xE6 p dst rs1 ul imm16
  | .sngti p dst rs1 ul imm16 => encI 0xE7 p dst rs1 ul imm16
  | .spt p dstp => encP 0xF0 p dstp 0 0
  | .spf p dstp => encP 0xF1 p dstp 0 0
  | .br p imm17 => encB 0xF2 p 0 0 imm17
  | .set p dst => encR 0xF4 p dst 0 0
  | .clr p dst => encR 0xF5 p dst 0 0
  | .jmp p rs1 imm17 => encJ 0xFD p rs1 imm17
  | .jr p rs1 imm17 => encJ 0xFE p rs1 imm17
  | .iret p => encJ 0xFF p 0 0

end Sys2Proof
end

