-- ==== Sys2Proof/Config.lean ====
section
/-! DEFINITION. The parameters of AA32 (00_scope.md R6 to R9) and the free values.
A constant without a body (`opaque`) is one the spec leaves open: nothing can be proved of its value, so a claim holds
for every value. A constant with a body is one the spec fixes (R6) or decides (R8). -/

namespace Sys2Proof

/-! ### Constants the spec fixes (R6, R45, R46) -/

/-- Status register `atype` (10_state.md R45). -/
def Config.atype : Dword := 0x0069DD80

/-- Status register `arev` (10_state.md R46). -/
def Config.arev : Dword := 0x00010000

/-- Words from one trap vector to the next, `VECTOR_STRIDE` (00_scope.md R6, 60_exceptions.md R402). -/
def Config.vectorStride : Nat := 8

/-! ### Parameters the spec decides (R8); DESIGN CHOICE of the spec, log 17 to 24 -/

/-- `RESET_PC`, decision D1 (70_reset_and_hazards.md R450); log 17. -/
def Config.resetPc : Addr := 0x00000000

/-- `INSTR_STRIDE`, decision D2 (10_state.md R40); log 18. -/
def Config.instrStride : Addr := 4

/-- `DWORD_ORDER`, decision D3 (20_memory.md R82): the low half of a dword is at the even address; log 19. -/
def Config.lowWordFirst : Bool := true

/-- `PC_REL_BASE`, decision D4 (45_branch.md R320); log 20. -/
def Config.pcRelBase : Addr := 4

/-- `SUB_CARRY_IS_BORROW`, decision D6 (40_arith_addsub_logic.md R154); log 21. -/
def Config.subCarryIsBorrow : Bool := true

/-- `LINK_ON_NOT_TAKEN`, decision D18 (45_branch.md R320); log 22. -/
def Config.linkOnNotTaken : Bool := false

/-- `TRAP_NUM_BITS`, decision D23 (48_misc_system.md R373); log 23. -/
def Config.trapNumBits : Nat := 8

/-- `STACK_STEP`, decision D17 (44_memory_instr.md R292); log 24. -/
def Config.stackStep : Addr := 1

/-- `INSTRS_COUNTS_SKIPPED`, decision D20 (10_state.md R50); log 28. -/
def Config.instrsCountsSkipped : Bool := false

/-! ### Parameters the spec leaves open (R9), without a body -/

/-- `CMP_SIGNED`, decision D5 (43_predicate.md R271): whether the orderings compare signed values; log 9. -/
opaque Config.cmpSigned : Bool

/-- `SHAMT_MASK5`, decision D7 (41_arith_shift.md R200): whether a shift uses only bits 4:0 of its amount; log 10. -/
opaque Config.shamtMask5 : Bool

/-- `DIV0` of the unsigned divides (42_arith_muldiv.md R237): from the opcode, the low dividend and `divmsi`, the
value for `dst` and the value for `divmso`; log 8. -/
opaque Config.div0Wide : Opcode → Dword → Dword → Dword × Dword

/-- `DIV0` of the signed and fixed-point divides (42_arith_muldiv.md R237): from the opcode and the dividend, the value
for `dst`; log 8. -/
opaque Config.div0 : Opcode → Dword → Dword

/-- `VENDOR_ID`, decision D33 (10_state.md R47); log 11. -/
opaque Config.vendorId : Dword

/-- `CLOCKS`, decision D22 (10_state.md R49): by how much `cycles` advances during a step; log 12. -/
opaque Config.clockTicks : Nat → Dword

/-! ### Free values of unspecified results, without a body -/

/-- The dword an instruction leaves where the spec specifies none (41_arith_shift.md R202, 44_memory_instr.md R292);
log 6, 7. -/
opaque Config.freeDword : Nat → Dword

/-- The carry a shift by more than 32 leaves (41_arith_shift.md R202); log 6. -/
opaque Config.freeBit : Nat → Bool

/-! ### The platform: the types of `MEMORY_MAP` and `EXTRA_SR` (R9), and devices

The two maps differ from system to system, so they stand in `State`, where every claim ranges over them (log 15, 16).
What a device does is outside the spec (20_memory.md R93); it is left open here. -/

/-- The name of a device. -/
abbrev DeviceId := Nat

/-- What answers at a memory address (20_memory.md R93, 60_exceptions.md R400). -/
inductive MemoryKind where
  /-- Main memory: a read has no side effect and returns the last value written (R93, R96). -/
  | ram
  /-- A device (R93). -/
  | device (d : DeviceId)
  /-- Neither memory nor a device (60_exceptions.md R400). -/
  | absent
  deriving DecidableEq, Repr

/-- An entry of `MEMORY_MAP`: what answers at the words from `first` to `last`, both included. -/
structure MemoryRegion where
  first : Addr
  last : Addr
  kind : MemoryKind
  deriving DecidableEq, Repr

/-- One access of the processor to a device, in the address space it happens in (10_state.md R63). -/
inductive DeviceAccess where
  /-- A 16-bit read of memory space. -/
  | readWord (a : Addr)
  /-- A 32-bit read of memory space, at an even address. -/
  | readDword (a : Addr)
  /-- A 16-bit write of memory space. -/
  | writeWord (a : Addr) (v : Word)
  /-- A 32-bit write of memory space, at an even address. -/
  | writeDword (a : Addr) (v : Dword)
  /-- A read of a status register that `EXTRA_SR` defines (10_state.md R57). -/
  | readSr (a : SrAddr)
  /-- A write of a status register that `EXTRA_SR` defines (10_state.md R58). -/
  | writeSr (a : SrAddr) (v : Dword)
  deriving DecidableEq, Repr

/-- An access, with the device it reached and the number of the step it happened in. -/
structure DeviceEvent where
  device : DeviceId
  step : Nat
  access : DeviceAccess
  deriving DecidableEq, Repr

/-- What a device returns to the read at the head of the list, given every earlier access, the latest first; a 16-bit
read takes the low half (20_memory.md R93, 10_state.md R57). Without a body: a claim holds for every device; log 48.
-/
opaque Config.deviceAnswer : List DeviceEvent → Dword

end Sys2Proof
end

