-- ==== Sys2Proof/Machine/State.lean ====
section
/-! DEFINITION. The state of an AA32 processor (10_state.md R30), as plain data, and its value after reset (R66). -/

namespace Sys2Proof.Machine

/-- Memory as (address, byte) pairs in one canonical form (`Memory.wf`). The word at word address `a` is the byte at
`2a` (its low half) and the byte at `2a + 1` (its high half); the order of the two is not observable by a program
(20_memory.md R81; log 5). -/
abbrev Memory := List Host.Cell

/-- What an unlisted byte of memory reads as. The spec gives no contents at reset (10_state.md R66); DESIGN CHOICE,
log 4. -/
def Memory.unlisted : Byte := 0

/-- The canonical form: addresses strictly rising, each in the space of 2^32 words (20_memory.md R80), and no entry
equal to what an unlisted byte reads as. -/
abbrev Memory.wf (m : Memory) : Prop :=
  m.Pairwise (fun c d => c.1 < d.1) ∧ ∀ c ∈ m, c.1 < 2 ^ 33 ∧ c.2 ≠ Memory.unlisted

/-- The state. Registers are read and written through the accessors of Machine/Ops.lean. -/
structure State where
  /-- `r0`..`r63` (10_state.md R31); slot 0 is never written and never read. -/
  regs : Vector Dword 64
  /-- `p0`..`p7` (10_state.md R35); slot 0 is never written and never read. -/
  preds : Vector Bool 8
  /-- The address of the next instruction to fetch (10_state.md R39). -/
  pc : Addr
  /-- SR 0003h, interrupt enable (10_state.md R48). -/
  ien : Bool
  /-- SR 0004h, the clock counter (10_state.md R49). -/
  cycles : Dword
  /-- SR 0005h, the count of completed instructions (10_state.md R50). -/
  instrs : Dword
  /-- SR 0006h, bits 63:32 of the last `mul` (10_state.md R51). -/
  mulms : Dword
  /-- SR 0007h, bits 63:32 of the dividend of `div` (10_state.md R52). -/
  divmsi : Dword
  /-- SR 0008h, bits 63:32 of the quotient of the last `div` (10_state.md R53). -/
  divmso : Dword
  /-- SR 0009h, the carry flag (10_state.md R54, R60). -/
  carry : Bool
  /-- SR 000Ah, the accumulating carry (10_state.md R55, R61). -/
  acarry : Bool
  /-- SR 000Bh `pc'`, the trap return address (10_state.md R56). -/
  pcSave : Dword
  /-- The memory (10_state.md R62). -/
  mem : Memory
  /-- The model's own field: what the environment presents at the coming instruction boundaries, the first entry at
  the next one; `none` is no request, `some v` a request with the number `v` on the bus (60_exceptions.md R405, R406;
  log 14). Past the end of the list there is no request. -/
  irqs : List (Option (BitVec 7))
  /-- `MEMORY_MAP` (00_scope.md R9, 20_memory.md R93), a parameter of the system that no step changes; log 15. -/
  memoryMap : List MemoryRegion
  /-- `EXTRA_SR` (00_scope.md R9, 10_state.md R57, R58), the status registers beyond 000Bh and the device behind each, a
  parameter of the system that no step changes; log 16. -/
  extraSr : List (SrAddr × DeviceId)
  /-- The model's own field: every access to a device so far, the latest first; log 48. -/
  deviceLog : List DeviceEvent
  /-- The model's own field: the number of steps taken, the index of the free values (log 13). -/
  draws : Nat
  deriving DecidableEq, Repr

/-- The processor has no fault (60_exceptions.md R400). This one is the model's. -/
inductive Fault where
  /-- Raised by a fetch, load or store at an address where `MEMORY_MAP` puts neither memory nor a device, to which the
  spec gives no effect (60_exceptions.md R400). That it faults is the model's choice: safe, but for a claim that such an
  access stops (log 15). The default map has no such address. -/
  | nothingAt (a : Addr)
  deriving DecidableEq, Repr

/-- The reasons the model gives no meaning. -/
inductive Refusal where
  /-- Raised by `exec` for an instruction that has no meaning yet. Safe. -/
  | notModelled (mnemonic : String)
  /-- Raised by `step` when the fetched word has an unassigned opcode, whatever its predicate (30_encoding.md R122).
  Safe. -/
  | unassignedOpcode (op : Opcode)
  deriving DecidableEq, Repr

/-- The state right after reset (10_state.md R66, 70_reset_and_hazards.md R451). The spec states `pc`, `ien`, `divmsi`,
`carry`, `acarry`, `r0` and `p0`; the other values are DESIGN CHOICE (log 1 to 4, 13, 14, 48). The maps of the platform
are at the spec's defaults (log 15, 16). -/
def State.reset : State where
  regs := Vector.replicate 64 0
  preds := (Vector.replicate 8 false).set 0 true
  pc := Config.resetPc
  ien := false
  cycles := 0
  instrs := 0
  mulms := 0
  divmsi := 0
  divmso := 0
  carry := false
  acarry := false
  pcSave := 0
  mem := []
  irqs := []
  memoryMap := []
  extraSr := []
  deviceLog := []
  draws := 0

end Sys2Proof.Machine
end

