-- ==== Sys2Proof/Machine/Ops.lean ====
section
/-! DEFINITION. The named operations over registers, status registers, memory and control, each said once. -/

namespace Sys2Proof.Machine

/-- What running an instruction or a step answers. -/
abbrev Result := Host.Outcome State Fault Refusal

/-! ### Single fields -/

/-- Write `pc`. -/
def State.setPc (s : State) (a : Addr) : State := { s with pc := a }

/-- Write `sr.carry`. -/
def State.setCarry (s : State) (c : Bool) : State := { s with carry := c }

/-- Write `sr.acarry`. -/
def State.setAcarry (s : State) (c : Bool) : State := { s with acarry := c }

/-- Write `sr.mulms`. -/
def State.setMulms (s : State) (v : Dword) : State := { s with mulms := v }

/-- Write `sr.divmso`. -/
def State.setDivmso (s : State) (v : Dword) : State := { s with divmso := v }

/-- Replace the memory. -/
def State.setMem (s : State) (m : Memory) : State := { s with mem := m }

/-- Count one completed instruction (10_state.md R50). -/
def State.retire (s : State) : State := { s with instrs := s.instrs + 1 }

/-! ### Data and predicate registers -/

/-- `x[r]`: `r0` reads 0 (00_scope.md R13, 10_state.md R31). -/
def State.reg (s : State) (r : Reg) : Dword := if r = 0 then 0 else s.regs[r.val]

/-- `x[r] <- v`: a write to `r0` is discarded (00_scope.md R13, 10_state.md R31). -/
def State.setReg (s : State) (r : Reg) (v : Dword) : State :=
  { s with regs := if r = 0 then s.regs else s.regs.set r.val v }

/-- `p[q]`: `p0` reads True (00_scope.md R13, 10_state.md R36). -/
def State.pred (s : State) (q : Pred) : Bool := if q = 0 then true else s.preds[q.val]

/-- `p[q] <- b`: a write to `p0` is discarded (00_scope.md R13, 10_state.md R36; log 35). -/
def State.setPred (s : State) (q : Pred) (b : Bool) : State :=
  { s with preds := if q = 0 then s.preds else s.preds.set q.val b }

/-- The return-address register `r1` (10_state.md R32). -/
def linkReg : Reg := 1

/-! ### The program counter -/

/-- `next`, the address of the instruction after the one at `this` (10_state.md R40). -/
def nextPc (this : Addr) : Addr := this + Config.instrStride

/-- `pc <- next`. -/
def State.advance (s : State) : State := s.setPc (nextPc s.pc)

/-- An address with bit 0 cleared (10_state.md R41, 20_memory.md R85). -/
def clearBit0 (a : Addr) : Addr := a &&& 0xFFFFFFFE

/-! ### Memory: bytes of the representation -/

/-- Read one byte of the representation. -/
def readByte (m : Memory) (k : Nat) : Byte :=
  match m with
  | [] => Memory.unlisted
  | (j, v) :: rest => if j = k then v else readByte rest k

/-- Write one byte of the representation, keeping the canonical form. -/
def writeByte (m : Memory) (k : Nat) (b : Byte) : Memory :=
  match m with
  | [] => if b = Memory.unlisted then [] else [(k, b)]
  | (j, v) :: rest =>
    if j < k then (j, v) :: writeByte rest k b
    else if j = k then (if b = Memory.unlisted then rest else (k, b) :: rest)
    else if b = Memory.unlisted then (j, v) :: rest else (k, b) :: (j, v) :: rest

/-! ### Memory: words and dwords -/

/-- `MemRead(a, 1)`: the word at `a` (20_memory.md R84). -/
def readWord (m : Memory) (a : Addr) : Word := readByte m (2 * a.toNat + 1) ++ readByte m (2 * a.toNat)

/-- `MemWrite(a, 1, v)`: the word at `a` (20_memory.md R86). -/
def writeWord (m : Memory) (a : Addr) (v : Word) : Memory :=
  writeByte (writeByte m (2 * a.toNat) (v.extractLsb' 0 8)) (2 * a.toNat + 1) (v.extractLsb' 8 8)

/-- The dword whose two words are the one at the even address and the one after it, `DWORD_ORDER` (20_memory.md R82). -/
def joinWords (atEven atOdd : Word) : Dword := if Config.lowWordFirst then atOdd ++ atEven else atEven ++ atOdd

/-- The word of a dword that stands at the even address (20_memory.md R82). -/
def evenWord (v : Dword) : Word := if Config.lowWordFirst then v.extractLsb' 0 16 else v.extractLsb' 16 16

/-- The word of a dword that stands at the odd address (20_memory.md R82). -/
def oddWord (v : Dword) : Word := if Config.lowWordFirst then v.extractLsb' 16 16 else v.extractLsb' 0 16

/-- `MemRead(a, 2)`: the dword at `a` with bit 0 ignored (20_memory.md R82, R85). -/
def readDword (m : Memory) (a : Addr) : Dword := joinWords (readWord m (clearBit0 a)) (readWord m (clearBit0 a + 1))

/-- `MemWrite(a, 2, v)`: the dword at `a` with bit 0 ignored (20_memory.md R82, R87). -/
def writeDword (m : Memory) (a : Addr) (v : Dword) : Memory :=
  writeWord (writeWord m (clearBit0 a) (evenWord v)) (clearBit0 a + 1) (oddWord v)

/-- The two word addresses a 32-bit access at `a` touches (20_memory.md R85, R87). -/
def dwordAddrs (a : Addr) : List Addr := [clearBit0 a, clearBit0 a + 1]

/-! ### The platform: `MEMORY_MAP` and devices (00_scope.md R9, 20_memory.md R93) -/

/-- Does the region hold the word at `a`? -/
def regionCovers (r : MemoryRegion) (a : Addr) : Bool :=
  decide (r.first.toNat ≤ a.toNat) && decide (a.toNat ≤ r.last.toNat)

/-- What `MEMORY_MAP` puts at `a`: the first region that holds it decides, and main memory is everywhere else
(decision D27; log 15). -/
def State.memoryAt (s : State) (a : Addr) : MemoryKind :=
  match s.memoryMap.find? (regionCovers · a) with
  | some r => r.kind
  | none => .ram

/-- The device at `a`, if there is one. -/
def State.deviceAt (s : State) (a : Addr) : Option DeviceId :=
  match s.memoryAt a with
  | .device d => some d
  | .ram => none
  | .absent => none

/-- Go on only where memory or a device answers at every word accessed; the first word without an answer is where the
access faults (60_exceptions.md R400; log 15). -/
def onMemory (s : State) (accessed : List Addr) (k : Result) : Result :=
  match accessed.find? fun a => decide (s.memoryAt a = .absent) with
  | some a => .fault (.nothingAt a)
  | none => k

/-- Device `d` sees the access `x`. -/
def State.logAccess (s : State) (d : DeviceId) (x : DeviceAccess) : State :=
  { s with deviceLog := ⟨d, s.draws, x⟩ :: s.deviceLog }

/-- What device `d` returns to the read `x`. -/
def State.answer (s : State) (d : DeviceId) (x : DeviceAccess) : Dword :=
  Config.deviceAnswer (s.logAccess d x).deviceLog

/-- The state after the read `x` of the device given; a read of main memory, `none`, has no side effect
(20_memory.md R93). -/
def State.afterRead (s : State) (d : Option DeviceId) (x : DeviceAccess) : State :=
  match d with
  | some d => s.logAccess d x
  | none => s

/-- What a 16-bit read at `a` returns (20_memory.md R84, R93). -/
def State.loadWord (s : State) (a : Addr) : Word :=
  match s.deviceAt a with
  | some d => (s.answer d (.readWord a)).extractLsb' 0 16
  | none => readWord s.mem a

/-- The state after a 16-bit read at `a`. -/
def State.afterWord (s : State) (a : Addr) : State := s.afterRead (s.deviceAt a) (.readWord a)

/-- Do both words of the dword at `a` reach the same device, or both none? Then a 32-bit access is one access, else two
16-bit ones, at the even address first (20_memory.md R92; log 48). -/
def State.singleAccess (s : State) (a : Addr) : Bool :=
  decide (s.deviceAt (clearBit0 a) = s.deviceAt (clearBit0 a + 1))

/-- What a 32-bit read at `a` returns (20_memory.md R85, R92, R93). -/
def State.loadDword (s : State) (a : Addr) : Dword :=
  let e := clearBit0 a
  if s.singleAccess a then
    match s.deviceAt e with
    | some d => s.answer d (.readDword e)
    | none => readDword s.mem a
  else joinWords (s.loadWord e) ((s.afterWord e).loadWord (e + 1))

/-- The state after a 32-bit read at `a`. -/
def State.afterDword (s : State) (a : Addr) : State :=
  let e := clearBit0 a
  if s.singleAccess a then s.afterRead (s.deviceAt e) (.readDword e) else (s.afterWord e).afterWord (e + 1)

/-- A 16-bit write at `a` (20_memory.md R86, R93). -/
def State.storeWord (s : State) (a : Addr) (v : Word) : State :=
  match s.deviceAt a with
  | some d => s.logAccess d (.writeWord a v)
  | none => s.setMem (writeWord s.mem a v)

/-- A 32-bit write at `a` (20_memory.md R87, R92, R93). -/
def State.storeDword (s : State) (a : Addr) (v : Dword) : State :=
  let e := clearBit0 a
  if s.singleAccess a then
    match s.deviceAt e with
    | some d => s.logAccess d (.writeDword e v)
    | none => s.setMem (writeDword s.mem a v)
  else (s.storeWord e (evenWord v)).storeWord (e + 1) (oddWord v)

/-! ### Status registers -/

/-- `SR[a]` read of base AA32: a single-bit register reads zero-extended, an address with no register reads 0
(10_state.md R57). -/
def readSr (s : State) (a : SrAddr) : Dword :=
  match a.toNat with
  | 0x0 => Config.atype
  | 0x1 => Config.arev
  | 0x2 => Config.vendorId
  | 0x3 => (BitVec.ofBool s.ien).zeroExtend 32
  | 0x4 => s.cycles
  | 0x5 => s.instrs
  | 0x6 => s.mulms
  | 0x7 => s.divmsi
  | 0x8 => s.divmso
  | 0x9 => (BitVec.ofBool s.carry).zeroExtend 32
  | 0xA => (BitVec.ofBool s.acarry).zeroExtend 32
  | 0xB => s.pcSave
  | _ => 0

/-- `SR[a] <- v` of base AA32: a single-bit register takes bit 0; a read-only register and an address with no register
are unchanged (10_state.md R58). -/
def writeSr (s : State) (a : SrAddr) (v : Dword) : State :=
  match a.toNat with
  | 0x3 => { s with ien := v.getLsbD 0 }
  | 0x4 => { s with cycles := v }
  | 0x5 => { s with instrs := v }
  | 0x6 => { s with mulms := v }
  | 0x7 => { s with divmsi := v }
  | 0x8 => { s with divmso := v }
  | 0x9 => { s with carry := v.getLsbD 0 }
  | 0xA => { s with acarry := v.getLsbD 0 }
  | 0xB => { s with pcSave := v }
  | _ => s

/-- The device behind the status register at `a`: `EXTRA_SR` speaks of the addresses beyond 000Bh (10_state.md R57,
R58); log 16. -/
def State.srDevice (s : State) (a : SrAddr) : Option DeviceId :=
  if a.toNat < 12 then none else s.extraSr.lookup a

/-- What a read of the status register at `a` returns, also where `EXTRA_SR` defines it (10_state.md R57). -/
def State.loadSr (s : State) (a : SrAddr) : Dword :=
  match s.srDevice a with
  | some d => s.answer d (.readSr a)
  | none => readSr s a

/-- The state after a read of the status register at `a`. -/
def State.afterSr (s : State) (a : SrAddr) : State := s.afterRead (s.srDevice a) (.readSr a)

/-- A write of the status register at `a`, also where `EXTRA_SR` defines it (10_state.md R58). -/
def State.storeSr (s : State) (a : SrAddr) (v : Dword) : State :=
  match s.srDevice a with
  | some d => s.logAccess d (.writeSr a v)
  | none => writeSr s a v

/-! ### Results of instructions -/

/-- Whether an instruction replaces `dst` or has the Accumulating modifier (40_arith_addsub_logic.md R150). -/
inductive Modifier where
  | replace
  | accumulate
  deriving DecidableEq, Repr

/-- `Accumulate(dst, r)` (40_arith_addsub_logic.md R153): `x[dst] <- x[dst] + r`, and `sr.acarry` takes the carry out of
that 32-bit addition. -/
def State.accumulate (s : State) (dst : Reg) (r : Dword) : State :=
  let t := (s.reg dst).toNat + r.toNat
  (s.setReg dst (BitVec.ofNat 32 t)).setAcarry (decide (2 ^ 32 ≤ t))

/-- Put the result `r` in `dst`, as the modifier says (40_arith_addsub_logic.md R150). -/
def State.putResult (s : State) (m : Modifier) (dst : Reg) (r : Dword) : State :=
  match m with
  | .replace => s.setReg dst r
  | .accumulate => s.accumulate dst r

/-- The effect of an instruction that writes its result and nothing else (40_arith_addsub_logic.md R150, R153). -/
def plainEffect (m : Modifier) (dst : Reg) (r : Dword) (s : State) : State := (s.putResult m dst r).advance

/-! ### The common steps of every instruction -/

/-- Count a completed instruction as its last effect (10_state.md R50). -/
def retired (r : Result) : Result :=
  match r with
  | .next t => .next t.retire
  | .fault e => .fault e
  | .refused e => .refused e

/-- What an instruction whose predicate is False does (30_encoding.md R118, 10_state.md R50). -/
def State.skip (s : State) : State :=
  if Config.instrsCountsSkipped then s.advance.retire else s.advance

/-- The common steps: the predicate is read before anything is written; when it is False the instruction is skipped, and
else its own rule runs and is counted (30_encoding.md R118). -/
def guarded (p : Pred) (s : State) (body : Result) : Result :=
  if s.pred p then retired body else .next s.skip

/-! ### Taking a trap, and the return from one -/

/-- `Trap(n, ret)`, the one trap entry (60_exceptions.md R402): `pc'` takes the return address, control goes to word
address `8 * n`, interrupts are disabled, and nothing else changes. -/
def State.takeTrap (s : State) (n : Nat) (ret : Addr) : State :=
  { s with pcSave := ret, pc := BitVec.ofNat 32 (Config.vectorStride * n), ien := false }

/-- The return from a trap (60_exceptions.md R409, 46_jump.md R343): `pc <- pc'` with bit 0 cleared, interrupts
enabled. -/
def State.returnFromTrap (s : State) : State :=
  { s with pc := clearBit0 s.pcSave, ien := true }

/-! ### Boundaries between instructions -/

/-- The request the processor accepts at this boundary: one is present and `sr.ien = 1` (60_exceptions.md R404, R405).
-/
def State.acceptedRequest (s : State) : Option (BitVec 7) :=
  if s.ien then s.irqs.head?.join else none

/-- Time passes: the clock advances by a free amount, and the boundary's request is past (10_state.md R49,
60_exceptions.md R406; log 12, 14). -/
def State.beginStep (s : State) : State :=
  { s with cycles := s.cycles + Config.clockTicks s.draws, irqs := s.irqs.tail, draws := s.draws + 1 }

/-- `AcceptInterrupt` with the number `v`: the injected trap saves `pc` itself and counts as an instruction
(60_exceptions.md R405). -/
def State.acceptInterrupt (s : State) (v : BitVec 7) : State := (s.takeTrap v.toNat s.pc).retire

end Sys2Proof.Machine
end

