-- ==== Sys2Proof/Machine/Flags.lean ====
section
/-! DEFINITION. What the arithmetic unit computes: results with their carries, and the comparisons. -/

namespace Sys2Proof.Machine

/-! ### Add and subtract (40_arith_addsub_logic.md R154) -/

/-- `AddC(a, b, c)`: the low 32 bits of the sum, and bit 32. -/
def addC (a b : Dword) (c : Bool) : Dword × Bool :=
  let t := a.toNat + b.toNat + c.toNat
  (BitVec.ofNat 32 t, decide (2 ^ 32 ≤ t))

/-- `SubB(a, b, c)`: the difference modulo 2^32, and the bit saved as carry, which is the borrow
(`SUB_CARRY_IS_BORROW`, decision D6; log 21). -/
def subB (a b : Dword) (c : Bool) : Dword × Bool :=
  let borrow := decide (a.toNat < b.toNat + c.toNat)
  (BitVec.ofInt 32 ((a.toNat : Int) - (b.toNat : Int) - (c.toNat : Int)), borrow == Config.subCarryIsBorrow)

/-! ### Shifts (41_arith_shift.md R200 to R202) -/

/-- The amount a shift uses of its second operand, for either value of `SHAMT_MASK5`. -/
def shAmtOf (mask5 : Bool) (b : Dword) : Nat := if mask5 then b.toNat % 32 else b.toNat

/-- `ShAmt(b)` (R200). -/
def shAmt (b : Dword) : Nat := shAmtOf Config.shamtMask5 b

/-- `ShL(a, n)` (R201). -/
def shL (a : Dword) (n : Nat) : Dword := if 32 ≤ n then 0 else a <<< n

/-- `ShR(a, n)` (R201). -/
def shR (a : Dword) (n : Nat) : Dword := if 32 ≤ n then 0 else a >>> n

/-- `ShAR(a, n)` (R201). -/
def shAR (a : Dword) (n : Nat) : Dword :=
  if 32 ≤ n then (if a.msb then 0xFFFFFFFF else 0) else a.sshiftRight n

/-- `ShLC(a, n, c)` (R202); `none` where the spec specifies neither the result nor the carry. -/
def shLC (a : Dword) (n : Nat) (c : Bool) : Option (Dword × Bool) :=
  if n = 0 then some (a, c)
  else if n ≤ 32 then
    some (BitVec.ofNat 32 (a.toNat * 2 ^ n % 2 ^ 32 + c.toNat * 2 ^ (n - 1)), a.getLsbD (32 - n))
  else none

/-- `ShRC(a, n, c)` (R202); `none` where the spec specifies neither the result nor the carry. -/
def shRC (a : Dword) (n : Nat) (c : Bool) : Option (Dword × Bool) :=
  if n = 0 then some (a, c)
  else if n ≤ 32 then
    some (BitVec.ofNat 32 (a.toNat / 2 ^ n + c.toNat * 2 ^ (32 - n)), a.getLsbD (n - 1))
  else none

/-! ### Multiply and divide (42_arith_muldiv.md R231 to R237) -/

/-- `MulU(a, b)`: the low and the high dword of the unsigned product (R231). -/
def mulU (a b : Dword) : Dword × Dword :=
  let p := BitVec.ofNat 64 (a.toNat * b.toNat)
  (p.extractLsb' 0 32, p.extractLsb' 32 32)

/-- `MulS(a, b)` (R232). -/
def mulS (a b : Dword) : Dword := BitVec.ofInt 32 (a.toInt * b.toInt)

/-- `MulF(a, b)`: bits 47:16 of the exact signed product (R233). -/
def mulF (a b : Dword) : Dword := (BitVec.ofInt 64 (a.toInt * b.toInt)).extractLsb' 16 32

/-- `DivU(m, a, b)` for a divisor that is not 0: the low and the high dword of the quotient (R234). -/
def divU (m a b : Dword) : Dword × Dword :=
  let q := BitVec.ofNat 64 ((m.toNat * 2 ^ 32 + a.toNat) / b.toNat)
  (q.extractLsb' 0 32, q.extractLsb' 32 32)

/-- `DivS(a, b)` for a divisor that is not 0, rounded toward zero (R235). -/
def divS (a b : Dword) : Dword := BitVec.ofInt 32 (a.toInt.tdiv b.toInt)

/-- `DivF(a, b)` for a divisor that is not 0, rounded toward zero (R236). -/
def divF (a b : Dword) : Dword := BitVec.ofInt 32 ((a.toInt * 2 ^ 16).tdiv b.toInt)

/-- The unsigned divide of opcode `op`, `DIV0` when the divisor is 0 (R237, R248). -/
def divUOr0 (op : Opcode) (m a b : Dword) : Dword × Dword :=
  if b = 0 then Config.div0Wide op a m else divU m a b

/-- The signed divide of opcode `op`, `DIV0` when the divisor is 0 (R237, R252). -/
def divSOr0 (op : Opcode) (a b : Dword) : Dword := if b = 0 then Config.div0 op a else divS a b

/-- The fixed-point divide of opcode `op`, `DIV0` when the divisor is 0 (R237, R260). -/
def divFOr0 (op : Opcode) (a b : Dword) : Dword := if b = 0 then Config.div0 op a else divF a b

/-! ### Comparisons (43_predicate.md R271) -/

/-- `val(v)`, for either value of `CMP_SIGNED`. -/
def valOf (signed : Bool) (v : Dword) : Int := if signed then v.toInt else (v.toNat : Int)

/-- `Eq(a, b)`. -/
def cmpEq (a b : Dword) : Bool := decide (a = b)

/-- `Lt(a, b)`. -/
def cmpLt (a b : Dword) : Bool := decide (valOf Config.cmpSigned a < valOf Config.cmpSigned b)

/-- `Gt(a, b)`. -/
def cmpGt (a b : Dword) : Bool := decide (valOf Config.cmpSigned b < valOf Config.cmpSigned a)

end Sys2Proof.Machine
end

