-- ==== Sys2Proof/Machine/Operands.lean ====
section
/-! DEFINITION. The operand forms: expanded immediates, effective addresses, branch and jump targets. -/

namespace Sys2Proof.Machine

/-- `ImmOperand(imm16, UL, signed)` (40_arith_addsub_logic.md R151). -/
def immOperand (imm16 : BitVec 16) (ul signed : Bool) : Dword :=
  if ul then imm16 ++ 0#16 else if signed then imm16.signExtend 32 else imm16.zeroExtend 32

/-- The class of R152 whose `UL = 0` immediate is sign-extended (decision D9; log 26). -/
def signedImm (imm16 : BitVec 16) (ul : Bool) : Dword := immOperand imm16 ul true

/-- The class of R152 whose `UL = 0` immediate is zero-extended. -/
def unsignedImm (imm16 : BitVec 16) (ul : Bool) : Dword := immOperand imm16 ul false

/-- `CmpImm(imm16, UL, ordered)` (47_compare.md R351): an ordering sign-extends exactly when it compares signed
values. -/
def cmpImm (imm16 : BitVec 16) (ul ordered : Bool) : Dword :=
  immOperand imm16 ul (ordered && Config.cmpSigned)

/-- The effective address of a memory instruction, in words and not scaled (44_memory_instr.md R290). -/
def effectiveAddr (base : Dword) (imm17 : BitVec 17) : Addr := base + imm17.signExtend 32

/-- The doubled signed offset of a branch or jump (30_encoding.md R125). -/
def doubledOffset (imm17 : BitVec 17) : Addr := 2 * imm17.signExtend 32

/-- `BranchTarget(imm17)` (45_branch.md R320). -/
def branchTarget (this : Addr) (imm17 : BitVec 17) : Addr :=
  clearBit0 (this + Config.pcRelBase + doubledOffset imm17)

/-- `JumpTarget(rs1, imm17, rel)` with `base = x[rs1]` (46_jump.md R340). -/
def jumpTarget (this base : Addr) (imm17 : BitVec 17) (rel : Bool) : Addr :=
  let t := base + doubledOffset imm17
  clearBit0 (if rel then t + (this + Config.pcRelBase) else t)

/-- The number of a `trap` instruction: the low `TRAP_NUM_BITS` bits of its immediate (48_misc_system.md R373). -/
def trapNumber (imm16 : BitVec 16) : Nat := imm16.toNat % 2 ^ Config.trapNumBits

/-- The word `sts` stores: bit 31 of the register, then its bits 14:0 (44_memory_instr.md R301, D16; log 29). -/
def signedNarrow (d : Dword) : Word := d.extractLsb' 31 1 ++ d.extractLsb' 0 15

end Sys2Proof.Machine
end

