-- ==== Sys2Proof/Machine/AddSub.lean ====
section
/-! DEFINITION. The add and subtract instructions (40_arith_addsub_logic.md R160 to R175). -/

namespace Sys2Proof.Machine

/-- The effect of the add instructions: `AddC` with the carry-in `c`; the carry out goes to `sr.carry`
(40_arith_addsub_logic.md R154). -/
def addEffect (m : Modifier) (dst : Reg) (a b : Dword) (c : Bool) (s : State) : State :=
  ((s.putResult m dst (addC a b c).1).setCarry (addC a b c).2).advance

/-- The effect of the subtract instructions: `SubB` with the borrow-in `c`; the borrow goes to `sr.carry`
(40_arith_addsub_logic.md R154). -/
def subEffect (m : Modifier) (dst : Reg) (a b : Dword) (c : Bool) (s : State) : State :=
  ((s.putResult m dst (subB a b c).1).setCarry (subB a b c).2).advance

/-- `add` (40_arith_addsub_logic.md R160). -/
def execAdd (p : Pred) (dst rs1 rs2 : Reg) (s : State) : Result :=
  guarded p s (.next (addEffect .replace dst (s.reg rs1) (s.reg rs2) false s))

/-- `addi` (40_arith_addsub_logic.md R161). -/
def execAddi (p : Pred) (dst rs1 : Reg) (ul : Bool) (imm16 : BitVec 16) (s : State) : Result :=
  guarded p s (.next (addEffect .replace dst (s.reg rs1) (unsignedImm imm16 ul) false s))

/-- `aadd` (40_arith_addsub_logic.md R162). -/
def execAadd (p : Pred) (dst rs1 rs2 : Reg) (s : State) : Result :=
  guarded p s (.next (addEffect .accumulate dst (s.reg rs1) (s.reg rs2) false s))

/-- `aaddi` (40_arith_addsub_logic.md R163). -/
def execAaddi (p : Pred) (dst rs1 : Reg) (ul : Bool) (imm16 : BitVec 16) (s : State) : Result :=
  guarded p s (.next (addEffect .accumulate dst (s.reg rs1) (unsignedImm imm16 ul) false s))

/-- `adc` (40_arith_addsub_logic.md R164). -/
def execAdc (p : Pred) (dst rs1 rs2 : Reg) (s : State) : Result :=
  guarded p s (.next (addEffect .replace dst (s.reg rs1) (s.reg rs2) s.carry s))

/-- `adci` (40_arith_addsub_logic.md R165). -/
def execAdci (p : Pred) (dst rs1 : Reg) (ul : Bool) (imm16 : BitVec 16) (s : State) : Result :=
  guarded p s (.next (addEffect .replace dst (s.reg rs1) (unsignedImm imm16 ul) s.carry s))

/-- `aadc` (40_arith_addsub_logic.md R166). -/
def execAadc (p : Pred) (dst rs1 rs2 : Reg) (s : State) : Result :=
  guarded p s (.next (addEffect .accumulate dst (s.reg rs1) (s.reg rs2) s.carry s))

/-- `aadci` (40_arith_addsub_logic.md R167). -/
def execAadci (p : Pred) (dst rs1 : Reg) (ul : Bool) (imm16 : BitVec 16) (s : State) : Result :=
  guarded p s (.next (addEffect .accumulate dst (s.reg rs1) (unsignedImm imm16 ul) s.carry s))

/-- `sub` (40_arith_addsub_logic.md R168). -/
def execSub (p : Pred) (dst rs1 rs2 : Reg) (s : State) : Result :=
  guarded p s (.next (subEffect .replace dst (s.reg rs1) (s.reg rs2) false s))

/-- `subi` (40_arith_addsub_logic.md R169). -/
def execSubi (p : Pred) (dst rs1 : Reg) (ul : Bool) (imm16 : BitVec 16) (s : State) : Result :=
  guarded p s (.next (subEffect .replace dst (s.reg rs1) (unsignedImm imm16 ul) false s))

/-- `asub` (40_arith_addsub_logic.md R170). -/
def execAsub (p : Pred) (dst rs1 rs2 : Reg) (s : State) : Result :=
  guarded p s (.next (subEffect .accumulate dst (s.reg rs1) (s.reg rs2) false s))

/-- `asubi` (40_arith_addsub_logic.md R171). -/
def execAsubi (p : Pred) (dst rs1 : Reg) (ul : Bool) (imm16 : BitVec 16) (s : State) : Result :=
  guarded p s (.next (subEffect .accumulate dst (s.reg rs1) (unsignedImm imm16 ul) false s))

/-- `suc` (40_arith_addsub_logic.md R172). -/
def execSuc (p : Pred) (dst rs1 rs2 : Reg) (s : State) : Result :=
  guarded p s (.next (subEffect .replace dst (s.reg rs1) (s.reg rs2) s.carry s))

/-- `suci` (40_arith_addsub_logic.md R173). -/
def execSuci (p : Pred) (dst rs1 : Reg) (ul : Bool) (imm16 : BitVec 16) (s : State) : Result :=
  guarded p s (.next (subEffect .replace dst (s.reg rs1) (unsignedImm imm16 ul) s.carry s))

/-- `asuc` (40_arith_addsub_logic.md R174). -/
def execAsuc (p : Pred) (dst rs1 rs2 : Reg) (s : State) : Result :=
  guarded p s (.next (subEffect .accumulate dst (s.reg rs1) (s.reg rs2) s.carry s))

/-- `asuci` (40_arith_addsub_logic.md R175). -/
def execAsuci (p : Pred) (dst rs1 : Reg) (ul : Bool) (imm16 : BitVec 16) (s : State) : Result :=
  guarded p s (.next (subEffect .accumulate dst (s.reg rs1) (unsignedImm imm16 ul) s.carry s))

end Sys2Proof.Machine
end

