-- ==== Sys2Proof/Machine/Branch.lean ====
section
/-! DEFINITION. The branch instructions (45_branch.md R320 to R329). -/

namespace Sys2Proof.Machine

/-- The effect of a taken or not taken branch (45_branch.md R320): taken, `r1` receives `next` and `pc` the target; not
taken, only `pc` changes (`LINK_ON_NOT_TAKEN`, decision D18; log 22). -/
def branchEffect (t : Bool) (imm17 : BitVec 17) (s : State) : State :=
  if t then (s.setReg linkReg (nextPc s.pc)).setPc (branchTarget s.pc imm17)
  else if Config.linkOnNotTaken then (s.setReg linkReg (nextPc s.pc)).advance
  else s.advance

/-- `brc` (45_branch.md R321). -/
def execBrc (p : Pred) (imm17 : BitVec 17) (s : State) : Result :=
  guarded p s (.next (branchEffect s.carry imm17 s))

/-- `brnc` (45_branch.md R322). -/
def execBrnc (p : Pred) (imm17 : BitVec 17) (s : State) : Result :=
  guarded p s (.next (branchEffect (!s.carry) imm17 s))

/-- `bre` (45_branch.md R323). -/
def execBre (p : Pred) (rs1 rs2 : Reg) (imm17 : BitVec 17) (s : State) : Result :=
  guarded p s (.next (branchEffect (cmpEq (s.reg rs1) (s.reg rs2)) imm17 s))

/-- `brne` (45_branch.md R324). -/
def execBrne (p : Pred) (rs1 rs2 : Reg) (imm17 : BitVec 17) (s : State) : Result :=
  guarded p s (.next (branchEffect (!cmpEq (s.reg rs1) (s.reg rs2)) imm17 s))

/-- `brl` (45_branch.md R325). -/
def execBrl (p : Pred) (rs1 rs2 : Reg) (imm17 : BitVec 17) (s : State) : Result :=
  guarded p s (.next (branchEffect (cmpLt (s.reg rs1) (s.reg rs2)) imm17 s))

/-- `brnl` (45_branch.md R326). -/
def execBrnl (p : Pred) (rs1 rs2 : Reg) (imm17 : BitVec 17) (s : State) : Result :=
  guarded p s (.next (branchEffect (!cmpLt (s.reg rs1) (s.reg rs2)) imm17 s))

/-- `brg` (45_branch.md R327). -/
def execBrg (p : Pred) (rs1 rs2 : Reg) (imm17 : BitVec 17) (s : State) : Result :=
  guarded p s (.next (branchEffect (cmpGt (s.reg rs1) (s.reg rs2)) imm17 s))

/-- `brng` (45_branch.md R328). -/
def execBrng (p : Pred) (rs1 rs2 : Reg) (imm17 : BitVec 17) (s : State) : Result :=
  guarded p s (.next (branchEffect (!cmpGt (s.reg rs1) (s.reg rs2)) imm17 s))

/-- `br` (45_branch.md R329). -/
def execBr (p : Pred) (imm17 : BitVec 17) (s : State) : Result :=
  guarded p s (.next (branchEffect true imm17 s))

end Sys2Proof.Machine
end

