-- ==== Sys2Proof/Machine/Compare.lean ====
section
/-! DEFINITION. The comparison instructions (47_compare.md R350 to R365). -/

namespace Sys2Proof.Machine

/-- The effect of a comparison: all of `dst` becomes 1 or 0 (47_compare.md R350). -/
def compareEffect (dst : Reg) (t : Bool) (s : State) : State := (s.setReg dst (if t then 1 else 0)).advance

/-- `se` (47_compare.md R352). -/
def execSe (p : Pred) (dst rs1 rs2 : Reg) (s : State) : Result :=
  guarded p s (.next (compareEffect dst (cmpEq (s.reg rs1) (s.reg rs2)) s))

/-- `sei` (47_compare.md R354). -/
def execSei (p : Pred) (dst rs1 : Reg) (ul : Bool) (imm16 : BitVec 16) (s : State) : Result :=
  guarded p s (.next (compareEffect dst (cmpEq (s.reg rs1) (cmpImm imm16 ul false)) s))

/-- `sne` (47_compare.md R353). -/
def execSne (p : Pred) (dst rs1 rs2 : Reg) (s : State) : Result :=
  guarded p s (.next (compareEffect dst (!cmpEq (s.reg rs1) (s.reg rs2)) s))

/-- `snei` (47_compare.md R355). -/
def execSnei (p : Pred) (dst rs1 : Reg) (ul : Bool) (imm16 : BitVec 16) (s : State) : Result :=
  guarded p s (.next (compareEffect dst (!cmpEq (s.reg rs1) (cmpImm imm16 ul false)) s))

/-- `slt` (47_compare.md R356). -/
def execSlt (p : Pred) (dst rs1 rs2 : Reg) (s : State) : Result :=
  guarded p s (.next (compareEffect dst (cmpLt (s.reg rs1) (s.reg rs2)) s))

/-- `slti` (47_compare.md R358). -/
def execSlti (p : Pred) (dst rs1 : Reg) (ul : Bool) (imm16 : BitVec 16) (s : State) : Result :=
  guarded p s (.next (compareEffect dst (cmpLt (s.reg rs1) (cmpImm imm16 ul true)) s))

/-- `snlt` (47_compare.md R357). -/
def execSnlt (p : Pred) (dst rs1 rs2 : Reg) (s : State) : Result :=
  guarded p s (.next (compareEffect dst (!cmpLt (s.reg rs1) (s.reg rs2)) s))

/-- `snlti` (47_compare.md R359). -/
def execSnlti (p : Pred) (dst rs1 : Reg) (ul : Bool) (imm16 : BitVec 16) (s : State) : Result :=
  guarded p s (.next (compareEffect dst (!cmpLt (s.reg rs1) (cmpImm imm16 ul true)) s))

/-- `sgt` (47_compare.md R360). -/
def execSgt (p : Pred) (dst rs1 rs2 : Reg) (s : State) : Result :=
  guarded p s (.next (compareEffect dst (cmpGt (s.reg rs1) (s.reg rs2)) s))

/-- `sgti` (47_compare.md R362). -/
def execSgti (p : Pred) (dst rs1 : Reg) (ul : Bool) (imm16 : BitVec 16) (s : State) : Result :=
  guarded p s (.next (compareEffect dst (cmpGt (s.reg rs1) (cmpImm imm16 ul true)) s))

/-- `sngt` (47_compare.md R361). -/
def execSngt (p : Pred) (dst rs1 rs2 : Reg) (s : State) : Result :=
  guarded p s (.next (compareEffect dst (!cmpGt (s.reg rs1) (s.reg rs2)) s))

/-- `sngti` (47_compare.md R363). -/
def execSngti (p : Pred) (dst rs1 : Reg) (ul : Bool) (imm16 : BitVec 16) (s : State) : Result :=
  guarded p s (.next (compareEffect dst (!cmpGt (s.reg rs1) (cmpImm imm16 ul true)) s))

/-- `set` (47_compare.md R364). -/
def execSet (p : Pred) (dst : Reg) (s : State) : Result :=
  guarded p s (.next (compareEffect dst true s))

/-- `clr` (47_compare.md R365). -/
def execClr (p : Pred) (dst : Reg) (s : State) : Result :=
  guarded p s (.next (compareEffect dst false s))

end Sys2Proof.Machine
end

