-- ==== Sys2Proof/Machine/Jump.lean ====
section
/-! DEFINITION. The jump instructions (46_jump.md R340 to R343). -/

namespace Sys2Proof.Machine

/-- The effect of `jmp` and `jr` (46_jump.md R340): `rs1` is read before `r1` receives `next`. -/
def jumpEffect (rs1 : Reg) (imm17 : BitVec 17) (rel : Bool) (s : State) : State :=
  (s.setReg linkReg (nextPc s.pc)).setPc (jumpTarget s.pc (s.reg rs1) imm17 rel)

/-- `jmp` (46_jump.md R341). -/
def execJmp (p : Pred) (rs1 : Reg) (imm17 : BitVec 17) (s : State) : Result :=
  guarded p s (.next (jumpEffect rs1 imm17 false s))

/-- `jr` (46_jump.md R342). -/
def execJr (p : Pred) (rs1 : Reg) (imm17 : BitVec 17) (s : State) : Result :=
  guarded p s (.next (jumpEffect rs1 imm17 true s))

/-- `iret` (46_jump.md R343). -/
def execIret (p : Pred) (s : State) : Result :=
  guarded p s (.next s.returnFromTrap)

end Sys2Proof.Machine
end

