-- ==== Sys2Proof/Machine/Logic.lean ====
section
/-! DEFINITION. The bitwise instructions (40_arith_addsub_logic.md R176 to R187). None touches `sr.carry`. -/

namespace Sys2Proof.Machine

/-- `and` (40_arith_addsub_logic.md R176). -/
def execAnd (p : Pred) (dst rs1 rs2 : Reg) (s : State) : Result :=
  guarded p s (.next (plainEffect .replace dst ((s.reg rs1) &&& (s.reg rs2)) s))

/-- `andi` (40_arith_addsub_logic.md R177). -/
def execAndi (p : Pred) (dst rs1 : Reg) (ul : Bool) (imm16 : BitVec 16) (s : State) : Result :=
  guarded p s (.next (plainEffect .replace dst ((s.reg rs1) &&& (unsignedImm imm16 ul)) s))

/-- `aand` (40_arith_addsub_logic.md R178). -/
def execAand (p : Pred) (dst rs1 rs2 : Reg) (s : State) : Result :=
  guarded p s (.next (plainEffect .accumulate dst ((s.reg rs1) &&& (s.reg rs2)) s))

/-- `aandi` (40_arith_addsub_logic.md R179). -/
def execAandi (p : Pred) (dst rs1 : Reg) (ul : Bool) (imm16 : BitVec 16) (s : State) : Result :=
  guarded p s (.next (plainEffect .accumulate dst ((s.reg rs1) &&& (unsignedImm imm16 ul)) s))

/-- `ior` (40_arith_addsub_logic.md R180). -/
def execIor (p : Pred) (dst rs1 rs2 : Reg) (s : State) : Result :=
  guarded p s (.next (plainEffect .replace dst ((s.reg rs1) ||| (s.reg rs2)) s))

/-- `iori` (40_arith_addsub_logic.md R181). -/
def execIori (p : Pred) (dst rs1 : Reg) (ul : Bool) (imm16 : BitVec 16) (s : State) : Result :=
  guarded p s (.next (plainEffect .replace dst ((s.reg rs1) ||| (unsignedImm imm16 ul)) s))

/-- `aior` (40_arith_addsub_logic.md R182). -/
def execAior (p : Pred) (dst rs1 rs2 : Reg) (s : State) : Result :=
  guarded p s (.next (plainEffect .accumulate dst ((s.reg rs1) ||| (s.reg rs2)) s))

/-- `aiori` (40_arith_addsub_logic.md R183). -/
def execAiori (p : Pred) (dst rs1 : Reg) (ul : Bool) (imm16 : BitVec 16) (s : State) : Result :=
  guarded p s (.next (plainEffect .accumulate dst ((s.reg rs1) ||| (unsignedImm imm16 ul)) s))

/-- `xor` (40_arith_addsub_logic.md R184). -/
def execXor (p : Pred) (dst rs1 rs2 : Reg) (s : State) : Result :=
  guarded p s (.next (plainEffect .replace dst ((s.reg rs1) ^^^ (s.reg rs2)) s))

/-- `xori` (40_arith_addsub_logic.md R185). -/
def execXori (p : Pred) (dst rs1 : Reg) (ul : Bool) (imm16 : BitVec 16) (s : State) : Result :=
  guarded p s (.next (plainEffect .replace dst ((s.reg rs1) ^^^ (unsignedImm imm16 ul)) s))

/-- `axor` (40_arith_addsub_logic.md R186). -/
def execAxor (p : Pred) (dst rs1 rs2 : Reg) (s : State) : Result :=
  guarded p s (.next (plainEffect .accumulate dst ((s.reg rs1) ^^^ (s.reg rs2)) s))

/-- `axori` (40_arith_addsub_logic.md R187). -/
def execAxori (p : Pred) (dst rs1 : Reg) (ul : Bool) (imm16 : BitVec 16) (s : State) : Result :=
  guarded p s (.next (plainEffect .accumulate dst ((s.reg rs1) ^^^ (unsignedImm imm16 ul)) s))

end Sys2Proof.Machine
end

