-- ==== Sys2Proof/Machine/Memory.lean ====
section
/-! DEFINITION. The memory instructions (44_memory_instr.md R290 to R306). None touches `sr.carry`. Each reaches main
memory or a device, as `MEMORY_MAP` says (20_memory.md R93). -/

namespace Sys2Proof.Machine

/-- The effect of the loads of `v` (44_memory_instr.md R291). -/
def loadEffect (m : Modifier) (dst : Reg) (v : Dword) (s : State) : State := (s.putResult m dst v).advance

/-- The zero-extended word a load of 16 bits at `a` reads (44_memory_instr.md R296). -/
def loadUnsigned (s : State) (a : Addr) : Dword := (s.loadWord a).zeroExtend 32

/-- The sign-extended word a load of 16 bits at `a` reads (44_memory_instr.md R297). -/
def loadSigned (s : State) (a : Addr) : Dword := (s.loadWord a).signExtend 32

/-- The effect of `pop` and `apop` (44_memory_instr.md R292): beside the load, the old base register grows by
`STACK_STEP`. With `dst = rs1` and not `r0` the spec specifies neither of the two values the register is given: it
receives a free value, and the rest of the instruction happens (log 7). -/
def popEffect (m : Modifier) (dst rs1 : Reg) (v : Dword) (s : State) : State :=
  let base := if dst = rs1 then Config.freeDword s.draws else s.reg rs1 + Config.stackStep
  ((s.putResult m dst v).setReg rs1 base).advance

/-- What `push` does beside the store (44_memory_instr.md R292, R302): the old base register shrinks by `STACK_STEP`. -/
def pushEffect (rs1 : Reg) (s : State) : State := (s.setReg rs1 (s.reg rs1 - Config.stackStep)).advance

/-- `ld` (44_memory_instr.md R295). -/
def execLd (p : Pred) (dst rs1 : Reg) (imm17 : BitVec 17) (s : State) : Result :=
  let ea := effectiveAddr (s.reg rs1) imm17
  guarded p s (onMemory s (dwordAddrs ea) (.next (loadEffect .replace dst (s.loadDword ea) (s.afterDword ea))))

/-- `ldu` (44_memory_instr.md R296). -/
def execLdu (p : Pred) (dst rs1 : Reg) (imm17 : BitVec 17) (s : State) : Result :=
  let ea := effectiveAddr (s.reg rs1) imm17
  guarded p s (onMemory s [ea] (.next (loadEffect .replace dst (loadUnsigned s ea) (s.afterWord ea))))

/-- `lds` (44_memory_instr.md R297). -/
def execLds (p : Pred) (dst rs1 : Reg) (imm17 : BitVec 17) (s : State) : Result :=
  let ea := effectiveAddr (s.reg rs1) imm17
  guarded p s (onMemory s [ea] (.next (loadEffect .replace dst (loadSigned s ea) (s.afterWord ea))))

/-- `pop` (44_memory_instr.md R298). -/
def execPop (p : Pred) (dst rs1 : Reg) (imm17 : BitVec 17) (s : State) : Result :=
  let ea := effectiveAddr (s.reg rs1) imm17
  guarded p s (onMemory s (dwordAddrs ea) (.next (popEffect .replace dst rs1 (s.loadDword ea) (s.afterDword ea))))

/-- `ald` (44_memory_instr.md R303). -/
def execAld (p : Pred) (dst rs1 : Reg) (imm17 : BitVec 17) (s : State) : Result :=
  let ea := effectiveAddr (s.reg rs1) imm17
  guarded p s (onMemory s (dwordAddrs ea) (.next (loadEffect .accumulate dst (s.loadDword ea) (s.afterDword ea))))

/-- `aldu` (44_memory_instr.md R304). -/
def execAldu (p : Pred) (dst rs1 : Reg) (imm17 : BitVec 17) (s : State) : Result :=
  let ea := effectiveAddr (s.reg rs1) imm17
  guarded p s (onMemory s [ea] (.next (loadEffect .accumulate dst (loadUnsigned s ea) (s.afterWord ea))))

/-- `alds` (44_memory_instr.md R305). -/
def execAlds (p : Pred) (dst rs1 : Reg) (imm17 : BitVec 17) (s : State) : Result :=
  let ea := effectiveAddr (s.reg rs1) imm17
  guarded p s (onMemory s [ea] (.next (loadEffect .accumulate dst (loadSigned s ea) (s.afterWord ea))))

/-- `apop` (44_memory_instr.md R306). -/
def execApop (p : Pred) (dst rs1 : Reg) (imm17 : BitVec 17) (s : State) : Result :=
  let ea := effectiveAddr (s.reg rs1) imm17
  guarded p s (onMemory s (dwordAddrs ea) (.next (popEffect .accumulate dst rs1 (s.loadDword ea) (s.afterDword ea))))

/-- `str` (44_memory_instr.md R299). -/
def execStr (p : Pred) (dst rs1 : Reg) (imm17 : BitVec 17) (s : State) : Result :=
  let ea := effectiveAddr (s.reg rs1) imm17
  guarded p s (onMemory s (dwordAddrs ea) (.next (s.storeDword ea (s.reg dst)).advance))

/-- `stu` (44_memory_instr.md R300). -/
def execStu (p : Pred) (dst rs1 : Reg) (imm17 : BitVec 17) (s : State) : Result :=
  let ea := effectiveAddr (s.reg rs1) imm17
  guarded p s (onMemory s [ea] (.next (s.storeWord ea ((s.reg dst).extractLsb' 0 16)).advance))

/-- `sts` (44_memory_instr.md R301). -/
def execSts (p : Pred) (dst rs1 : Reg) (imm17 : BitVec 17) (s : State) : Result :=
  let ea := effectiveAddr (s.reg rs1) imm17
  guarded p s (onMemory s [ea] (.next (s.storeWord ea (signedNarrow (s.reg dst))).advance))

/-- `push` (44_memory_instr.md R302). -/
def execPush (p : Pred) (dst rs1 : Reg) (imm17 : BitVec 17) (s : State) : Result :=
  let ea := effectiveAddr (s.reg rs1) imm17
  guarded p s (onMemory s (dwordAddrs ea) (.next (pushEffect rs1 (s.storeDword ea (s.reg dst)))))

end Sys2Proof.Machine
end

