-- ==== Sys2Proof/Machine/MulDiv.lean ====
section
/-! DEFINITION. The multiply and divide instructions (42_arith_muldiv.md R240 to R263). None touches `sr.carry`. -/

namespace Sys2Proof.Machine

/-- The effect of the unsigned multiplies: the low dword is the result and the high dword goes to `sr.mulms`
(42_arith_muldiv.md R231, 10_state.md R51). -/
def mulEffect (m : Modifier) (dst : Reg) (a b : Dword) (s : State) : State :=
  ((s.putResult m dst (mulU a b).1).setMulms (mulU a b).2).advance

/-- The effect of the unsigned divides on `divmsi : a`: the low dword of the quotient is the result and the high dword
goes to `sr.divmso` (42_arith_muldiv.md R234, R237). -/
def divEffect (op : Opcode) (m : Modifier) (dst : Reg) (a b : Dword) (s : State) : State :=
  let q := divUOr0 op s.divmsi a b
  ((s.putResult m dst q.1).setDivmso q.2).advance

/-- `mul` (42_arith_muldiv.md R240). -/
def execMul (p : Pred) (dst rs1 rs2 : Reg) (s : State) : Result :=
  guarded p s (.next (mulEffect .replace dst (s.reg rs1) (s.reg rs2) s))

/-- `muli` (42_arith_muldiv.md R241). -/
def execMuli (p : Pred) (dst rs1 : Reg) (ul : Bool) (imm16 : BitVec 16) (s : State) : Result :=
  guarded p s (.next (mulEffect .replace dst (s.reg rs1) (unsignedImm imm16 ul) s))

/-- `amul` (42_arith_muldiv.md R242). -/
def execAmul (p : Pred) (dst rs1 rs2 : Reg) (s : State) : Result :=
  guarded p s (.next (mulEffect .accumulate dst (s.reg rs1) (s.reg rs2) s))

/-- `amuli` (42_arith_muldiv.md R243). -/
def execAmuli (p : Pred) (dst rs1 : Reg) (ul : Bool) (imm16 : BitVec 16) (s : State) : Result :=
  guarded p s (.next (mulEffect .accumulate dst (s.reg rs1) (unsignedImm imm16 ul) s))

/-- `muls` (42_arith_muldiv.md R244). -/
def execMuls (p : Pred) (dst rs1 rs2 : Reg) (s : State) : Result :=
  guarded p s (.next (plainEffect .replace dst (mulS (s.reg rs1) (s.reg rs2)) s))

/-- `mulsi` (42_arith_muldiv.md R245). -/
def execMulsi (p : Pred) (dst rs1 : Reg) (ul : Bool) (imm16 : BitVec 16) (s : State) : Result :=
  guarded p s (.next (plainEffect .replace dst (mulS (s.reg rs1) (signedImm imm16 ul)) s))

/-- `amuls` (42_arith_muldiv.md R246). -/
def execAmuls (p : Pred) (dst rs1 rs2 : Reg) (s : State) : Result :=
  guarded p s (.next (plainEffect .accumulate dst (mulS (s.reg rs1) (s.reg rs2)) s))

/-- `amulsi` (42_arith_muldiv.md R247). -/
def execAmulsi (p : Pred) (dst rs1 : Reg) (ul : Bool) (imm16 : BitVec 16) (s : State) : Result :=
  guarded p s (.next (plainEffect .accumulate dst (mulS (s.reg rs1) (signedImm imm16 ul)) s))

/-- `mulf` (42_arith_muldiv.md R256). -/
def execMulf (p : Pred) (dst rs1 rs2 : Reg) (s : State) : Result :=
  guarded p s (.next (plainEffect .replace dst (mulF (s.reg rs1) (s.reg rs2)) s))

/-- `mulfi` (42_arith_muldiv.md R257). -/
def execMulfi (p : Pred) (dst rs1 : Reg) (ul : Bool) (imm16 : BitVec 16) (s : State) : Result :=
  guarded p s (.next (plainEffect .replace dst (mulF (s.reg rs1) (signedImm imm16 ul)) s))

/-- `amulf` (42_arith_muldiv.md R258). -/
def execAmulf (p : Pred) (dst rs1 rs2 : Reg) (s : State) : Result :=
  guarded p s (.next (plainEffect .accumulate dst (mulF (s.reg rs1) (s.reg rs2)) s))

/-- `amulfi` (42_arith_muldiv.md R259). -/
def execAmulfi (p : Pred) (dst rs1 : Reg) (ul : Bool) (imm16 : BitVec 16) (s : State) : Result :=
  guarded p s (.next (plainEffect .accumulate dst (mulF (s.reg rs1) (signedImm imm16 ul)) s))

/-- `div` (42_arith_muldiv.md R248). -/
def execDiv (p : Pred) (dst rs1 rs2 : Reg) (s : State) : Result :=
  guarded p s (.next (divEffect 0x22 .replace dst (s.reg rs1) (s.reg rs2) s))

/-- `divi` (42_arith_muldiv.md R249). -/
def execDivi (p : Pred) (dst rs1 : Reg) (ul : Bool) (imm16 : BitVec 16) (s : State) : Result :=
  guarded p s (.next (divEffect 0x32 .replace dst (s.reg rs1) (unsignedImm imm16 ul) s))

/-- `adiv` (42_arith_muldiv.md R250). -/
def execAdiv (p : Pred) (dst rs1 rs2 : Reg) (s : State) : Result :=
  guarded p s (.next (divEffect 0x62 .accumulate dst (s.reg rs1) (s.reg rs2) s))

/-- `adivi` (42_arith_muldiv.md R251). -/
def execAdivi (p : Pred) (dst rs1 : Reg) (ul : Bool) (imm16 : BitVec 16) (s : State) : Result :=
  guarded p s (.next (divEffect 0x72 .accumulate dst (s.reg rs1) (unsignedImm imm16 ul) s))

/-- `divs` (42_arith_muldiv.md R252). -/
def execDivs (p : Pred) (dst rs1 rs2 : Reg) (s : State) : Result :=
  guarded p s (.next (plainEffect .replace dst (divSOr0 0x23 (s.reg rs1) (s.reg rs2)) s))

/-- `divsi` (42_arith_muldiv.md R253). -/
def execDivsi (p : Pred) (dst rs1 : Reg) (ul : Bool) (imm16 : BitVec 16) (s : State) : Result :=
  guarded p s (.next (plainEffect .replace dst (divSOr0 0x33 (s.reg rs1) (signedImm imm16 ul)) s))

/-- `adivs` (42_arith_muldiv.md R254). -/
def execAdivs (p : Pred) (dst rs1 rs2 : Reg) (s : State) : Result :=
  guarded p s (.next (plainEffect .accumulate dst (divSOr0 0x63 (s.reg rs1) (s.reg rs2)) s))

/-- `adivsi` (42_arith_muldiv.md R255). -/
def execAdivsi (p : Pred) (dst rs1 : Reg) (ul : Bool) (imm16 : BitVec 16) (s : State) : Result :=
  guarded p s (.next (plainEffect .accumulate dst (divSOr0 0x73 (s.reg rs1) (signedImm imm16 ul)) s))

/-- `divf` (42_arith_muldiv.md R260). -/
def execDivf (p : Pred) (dst rs1 rs2 : Reg) (s : State) : Result :=
  guarded p s (.next (plainEffect .replace dst (divFOr0 0x29 (s.reg rs1) (s.reg rs2)) s))

/-- `divfi` (42_arith_muldiv.md R261). -/
def execDivfi (p : Pred) (dst rs1 : Reg) (ul : Bool) (imm16 : BitVec 16) (s : State) : Result :=
  guarded p s (.next (plainEffect .replace dst (divFOr0 0x39 (s.reg rs1) (signedImm imm16 ul)) s))

/-- `adivf` (42_arith_muldiv.md R262). -/
def execAdivf (p : Pred) (dst rs1 rs2 : Reg) (s : State) : Result :=
  guarded p s (.next (plainEffect .accumulate dst (divFOr0 0x69 (s.reg rs1) (s.reg rs2)) s))

/-- `adivfi` (42_arith_muldiv.md R263). -/
def execAdivfi (p : Pred) (dst rs1 : Reg) (ul : Bool) (imm16 : BitVec 16) (s : State) : Result :=
  guarded p s (.next (plainEffect .accumulate dst (divFOr0 0x79 (s.reg rs1) (signedImm imm16 ul)) s))

end Sys2Proof.Machine
end

