-- ==== Sys2Proof/Machine/Predicate.lean ====
section
/-! DEFINITION. The predicate instructions (43_predicate.md R270 to R281). -/

namespace Sys2Proof.Machine

/-- The effect of a predicate instruction: `p[dstp] <- t`, always (43_predicate.md R270). -/
def predEffect (dstp : Pred) (t : Bool) (s : State) : State := (s.setPred dstp t).advance

/-- `spc` (43_predicate.md R272). -/
def execSpc (p : Pred) (dstp : Pred) (s : State) : Result :=
  guarded p s (.next (predEffect dstp s.carry s))

/-- `spnc` (43_predicate.md R273). -/
def execSpnc (p : Pred) (dstp : Pred) (s : State) : Result :=
  guarded p s (.next (predEffect dstp (!s.carry) s))

/-- `spe` (43_predicate.md R274). -/
def execSpe (p : Pred) (dstp : Pred) (rs1 rs2 : Reg) (s : State) : Result :=
  guarded p s (.next (predEffect dstp (cmpEq (s.reg rs1) (s.reg rs2)) s))

/-- `spne` (43_predicate.md R275). -/
def execSpne (p : Pred) (dstp : Pred) (rs1 rs2 : Reg) (s : State) : Result :=
  guarded p s (.next (predEffect dstp (!cmpEq (s.reg rs1) (s.reg rs2)) s))

/-- `spl` (43_predicate.md R276). -/
def execSpl (p : Pred) (dstp : Pred) (rs1 rs2 : Reg) (s : State) : Result :=
  guarded p s (.next (predEffect dstp (cmpLt (s.reg rs1) (s.reg rs2)) s))

/-- `spnl` (43_predicate.md R277). -/
def execSpnl (p : Pred) (dstp : Pred) (rs1 rs2 : Reg) (s : State) : Result :=
  guarded p s (.next (predEffect dstp (!cmpLt (s.reg rs1) (s.reg rs2)) s))

/-- `spg` (43_predicate.md R278). -/
def execSpg (p : Pred) (dstp : Pred) (rs1 rs2 : Reg) (s : State) : Result :=
  guarded p s (.next (predEffect dstp (cmpGt (s.reg rs1) (s.reg rs2)) s))

/-- `spng` (43_predicate.md R279). -/
def execSpng (p : Pred) (dstp : Pred) (rs1 rs2 : Reg) (s : State) : Result :=
  guarded p s (.next (predEffect dstp (!cmpGt (s.reg rs1) (s.reg rs2)) s))

/-- `spt` (43_predicate.md R280). -/
def execSpt (p : Pred) (dstp : Pred) (s : State) : Result :=
  guarded p s (.next (predEffect dstp true s))

/-- `spf` (43_predicate.md R281). -/
def execSpf (p : Pred) (dstp : Pred) (s : State) : Result :=
  guarded p s (.next (predEffect dstp false s))

end Sys2Proof.Machine
end

