-- ==== Sys2Proof/Machine/Shift.lean ====
section
/-! DEFINITION. The shift instructions (41_arith_shift.md R205 to R224). `sl`, `sr`, `sar` do not touch `sr.carry`. -/

namespace Sys2Proof.Machine

/-- The effect of the shifts through carry. Where the spec specifies neither result nor carry (an amount above 32), both
are free values (41_arith_shift.md R202; log 6). -/
def carryShiftEffect (m : Modifier) (dst : Reg) (shifted : Option (Dword × Bool)) (s : State) : State :=
  let rc := shifted.getD (Config.freeDword s.draws, Config.freeBit s.draws)
  ((s.putResult m dst rc.1).setCarry rc.2).advance

/-- `slc` (41_arith_shift.md R205). -/
def execSlc (p : Pred) (dst rs1 rs2 : Reg) (s : State) : Result :=
  guarded p s (.next (carryShiftEffect .replace dst (shLC (s.reg rs1) (shAmt (s.reg rs2)) s.carry) s))

/-- `slci` (41_arith_shift.md R206). -/
def execSlci (p : Pred) (dst rs1 : Reg) (ul : Bool) (imm16 : BitVec 16) (s : State) : Result :=
  guarded p s (.next (carryShiftEffect .replace dst (shLC (s.reg rs1) (shAmt (unsignedImm imm16 ul)) s.carry) s))

/-- `aslc` (41_arith_shift.md R207). -/
def execAslc (p : Pred) (dst rs1 rs2 : Reg) (s : State) : Result :=
  guarded p s (.next (carryShiftEffect .accumulate dst (shLC (s.reg rs1) (shAmt (s.reg rs2)) s.carry) s))

/-- `aslci` (41_arith_shift.md R208). -/
def execAslci (p : Pred) (dst rs1 : Reg) (ul : Bool) (imm16 : BitVec 16) (s : State) : Result :=
  guarded p s (.next (carryShiftEffect .accumulate dst (shLC (s.reg rs1) (shAmt (unsignedImm imm16 ul)) s.carry) s))

/-- `src` (41_arith_shift.md R213). -/
def execSrc (p : Pred) (dst rs1 rs2 : Reg) (s : State) : Result :=
  guarded p s (.next (carryShiftEffect .replace dst (shRC (s.reg rs1) (shAmt (s.reg rs2)) s.carry) s))

/-- `srci` (41_arith_shift.md R214). -/
def execSrci (p : Pred) (dst rs1 : Reg) (ul : Bool) (imm16 : BitVec 16) (s : State) : Result :=
  guarded p s (.next (carryShiftEffect .replace dst (shRC (s.reg rs1) (shAmt (unsignedImm imm16 ul)) s.carry) s))

/-- `asrc` (41_arith_shift.md R215). -/
def execAsrc (p : Pred) (dst rs1 rs2 : Reg) (s : State) : Result :=
  guarded p s (.next (carryShiftEffect .accumulate dst (shRC (s.reg rs1) (shAmt (s.reg rs2)) s.carry) s))

/-- `asrci` (41_arith_shift.md R216). -/
def execAsrci (p : Pred) (dst rs1 : Reg) (ul : Bool) (imm16 : BitVec 16) (s : State) : Result :=
  guarded p s (.next (carryShiftEffect .accumulate dst (shRC (s.reg rs1) (shAmt (unsignedImm imm16 ul)) s.carry) s))

/-- `sl` (41_arith_shift.md R209). -/
def execSl (p : Pred) (dst rs1 rs2 : Reg) (s : State) : Result :=
  guarded p s (.next (plainEffect .replace dst (shL (s.reg rs1) (shAmt (s.reg rs2))) s))

/-- `sli` (41_arith_shift.md R210). -/
def execSli (p : Pred) (dst rs1 : Reg) (ul : Bool) (imm16 : BitVec 16) (s : State) : Result :=
  guarded p s (.next (plainEffect .replace dst (shL (s.reg rs1) (shAmt (unsignedImm imm16 ul))) s))

/-- `asl` (41_arith_shift.md R211). -/
def execAsl (p : Pred) (dst rs1 rs2 : Reg) (s : State) : Result :=
  guarded p s (.next (plainEffect .accumulate dst (shL (s.reg rs1) (shAmt (s.reg rs2))) s))

/-- `asli` (41_arith_shift.md R212). -/
def execAsli (p : Pred) (dst rs1 : Reg) (ul : Bool) (imm16 : BitVec 16) (s : State) : Result :=
  guarded p s (.next (plainEffect .accumulate dst (shL (s.reg rs1) (shAmt (unsignedImm imm16 ul))) s))

/-- `sr` (41_arith_shift.md R217). -/
def execSr (p : Pred) (dst rs1 rs2 : Reg) (s : State) : Result :=
  guarded p s (.next (plainEffect .replace dst (shR (s.reg rs1) (shAmt (s.reg rs2))) s))

/-- `sri` (41_arith_shift.md R218). -/
def execSri (p : Pred) (dst rs1 : Reg) (ul : Bool) (imm16 : BitVec 16) (s : State) : Result :=
  guarded p s (.next (plainEffect .replace dst (shR (s.reg rs1) (shAmt (unsignedImm imm16 ul))) s))

/-- `asr` (41_arith_shift.md R219). -/
def execAsr (p : Pred) (dst rs1 rs2 : Reg) (s : State) : Result :=
  guarded p s (.next (plainEffect .accumulate dst (shR (s.reg rs1) (shAmt (s.reg rs2))) s))

/-- `asri` (41_arith_shift.md R220). -/
def execAsri (p : Pred) (dst rs1 : Reg) (ul : Bool) (imm16 : BitVec 16) (s : State) : Result :=
  guarded p s (.next (plainEffect .accumulate dst (shR (s.reg rs1) (shAmt (unsignedImm imm16 ul))) s))

/-- `sar` (41_arith_shift.md R221). -/
def execSar (p : Pred) (dst rs1 rs2 : Reg) (s : State) : Result :=
  guarded p s (.next (plainEffect .replace dst (shAR (s.reg rs1) (shAmt (s.reg rs2))) s))

/-- `sari` (41_arith_shift.md R222). -/
def execSari (p : Pred) (dst rs1 : Reg) (ul : Bool) (imm16 : BitVec 16) (s : State) : Result :=
  guarded p s (.next (plainEffect .replace dst (shAR (s.reg rs1) (shAmt (unsignedImm imm16 ul))) s))

/-- `asar` (41_arith_shift.md R223). -/
def execAsar (p : Pred) (dst rs1 rs2 : Reg) (s : State) : Result :=
  guarded p s (.next (plainEffect .accumulate dst (shAR (s.reg rs1) (shAmt (s.reg rs2))) s))

/-- `asari` (41_arith_shift.md R224). -/
def execAsari (p : Pred) (dst rs1 : Reg) (ul : Bool) (imm16 : BitVec 16) (s : State) : Result :=
  guarded p s (.next (plainEffect .accumulate dst (shAR (s.reg rs1) (shAmt (unsignedImm imm16 ul))) s))

end Sys2Proof.Machine
end

