-- ==== Sys2Proof/Machine/System.lean ====
section
/-! DEFINITION. The miscellaneous and system instructions (48_misc_system.md R370 to R373). -/

namespace Sys2Proof.Machine

/-- `nop` (48_misc_system.md R370). -/
def execNop (p : Pred) (s : State) : Result :=
  guarded p s (.next s.advance)

/-- `srr` (48_misc_system.md R371). -/
def execSrr (p : Pred) (dst : Reg) (sr : SrAddr) (s : State) : Result :=
  guarded p s (.next ((s.afterSr sr).setReg dst (s.loadSr sr)).advance)

/-- `srw` (48_misc_system.md R372): the field `dst` names the register that is read. -/
def execSrw (p : Pred) (dst : Reg) (sr : SrAddr) (s : State) : Result :=
  guarded p s (.next (s.storeSr sr (s.reg dst)).advance)

/-- `trap` (48_misc_system.md R373). -/
def execTrap (p : Pred) (imm16 : BitVec 16) (s : State) : Result :=
  guarded p s (.next (s.takeTrap (trapNumber imm16) (nextPc s.pc)))

end Sys2Proof.Machine
end

