-- ==== Sys2Proof/Machine/Dispatch.lean ====
section
/-! DEFINITION. What each instruction does: one direct call of its meaning per constructor of `Instr`. -/

namespace Sys2Proof.Machine

/-- The whole effect of one instruction at `s.pc`: its predicate, its own rule, the pc and `instrs` (30_encoding.md R118). -/
def exec (i : Instr) (s : State) : Host.Outcome State Fault Refusal :=
  match i with
  | .nop p => Sys2Proof.Machine.execNop p s
  | .add p dst rs1 rs2 => Sys2Proof.Machine.execAdd p dst rs1 rs2 s
  | .adc p dst rs1 rs2 => Sys2Proof.Machine.execAdc p dst rs1 rs2 s
  | .sub p dst rs1 rs2 => Sys2Proof.Machine.execSub p dst rs1 rs2 s
  | .suc p dst rs1 rs2 => Sys2Proof.Machine.execSuc p dst rs1 rs2 s
  | .and p dst rs1 rs2 => Sys2Proof.Machine.execAnd p dst rs1 rs2 s
  | .ior p dst rs1 rs2 => Sys2Proof.Machine.execIor p dst rs1 rs2 s
  | .xor p dst rs1 rs2 => Sys2Proof.Machine.execXor p dst rs1 rs2 s
  | .slc p dst rs1 rs2 => Sys2Proof.Machine.execSlc p dst rs1 rs2 s
  | .sl p dst rs1 rs2 => Sys2Proof.Machine.execSl p dst rs1 rs2 s
  | .src p dst rs1 rs2 => Sys2Proof.Machine.execSrc p dst rs1 rs2 s
  | .sr p dst rs1 rs2 => Sys2Proof.Machine.execSr p dst rs1 rs2 s
  | .sar p dst rs1 rs2 => Sys2Proof.Machine.execSar p dst rs1 rs2 s
  | .addi p dst rs1 ul imm16 => Sys2Proof.Machine.execAddi p dst rs1 ul imm16 s
  | .adci p dst rs1 ul imm16 => Sys2Proof.Machine.execAdci p dst rs1 ul imm16 s
  | .subi p dst rs1 ul imm16 => Sys2Proof.Machine.execSubi p dst rs1 ul imm16 s
  | .suci p dst rs1 ul imm16 => Sys2Proof.Machine.execSuci p dst rs1 ul imm16 s
  | .andi p dst rs1 ul imm16 => Sys2Proof.Machine.execAndi p dst rs1 ul imm16 s
  | .iori p dst rs1 ul imm16 => Sys2Proof.Machine.execIori p dst rs1 ul imm16 s
  | .xori p dst rs1 ul imm16 => Sys2Proof.Machine.execXori p dst rs1 ul imm16 s
  | .slci p dst rs1 ul imm16 => Sys2Proof.Machine.execSlci p dst rs1 ul imm16 s
  | .sli p dst rs1 ul imm16 => Sys2Proof.Machine.execSli p dst rs1 ul imm16 s
  | .srci p dst rs1 ul imm16 => Sys2Proof.Machine.execSrci p dst rs1 ul imm16 s
  | .sri p dst rs1 ul imm16 => Sys2Proof.Machine.execSri p dst rs1 ul imm16 s
  | .sari p dst rs1 ul imm16 => Sys2Proof.Machine.execSari p dst rs1 ul imm16 s
  | .mul p dst rs1 rs2 => Sys2Proof.Machine.execMul p dst rs1 rs2 s
  | .muls p dst rs1 rs2 => Sys2Proof.Machine.execMuls p dst rs1 rs2 s
  | .div p dst rs1 rs2 => Sys2Proof.Machine.execDiv p dst rs1 rs2 s
  | .divs p dst rs1 rs2 => Sys2Proof.Machine.execDivs p dst rs1 rs2 s
  | .mulf p dst rs1 rs2 => Sys2Proof.Machine.execMulf p dst rs1 rs2 s
  | .divf p dst rs1 rs2 => Sys2Proof.Machine.execDivf p dst rs1 rs2 s
  | .muli p dst rs1 ul imm16 => Sys2Proof.Machine.execMuli p dst rs1 ul imm16 s
  | .mulsi p dst rs1 ul imm16 => Sys2Proof.Machine.execMulsi p dst rs1 ul imm16 s
  | .divi p dst rs1 ul imm16 => Sys2Proof.Machine.execDivi p dst rs1 ul imm16 s
  | .divsi p dst rs1 ul imm16 => Sys2Proof.Machine.execDivsi p dst rs1 ul imm16 s
  | .mulfi p dst rs1 ul imm16 => Sys2Proof.Machine.execMulfi p dst rs1 ul imm16 s
  | .divfi p dst rs1 ul imm16 => Sys2Proof.Machine.execDivfi p dst rs1 ul imm16 s
  | .aadd p dst rs1 rs2 => Sys2Proof.Machine.execAadd p dst rs1 rs2 s
  | .aadc p dst rs1 rs2 => Sys2Proof.Machine.execAadc p dst rs1 rs2 s
  | .asub p dst rs1 rs2 => Sys2Proof.Machine.execAsub p dst rs1 rs2 s
  | .asuc p dst rs1 rs2 => Sys2Proof.Machine.execAsuc p dst rs1 rs2 s
  | .aand p dst rs1 rs2 => Sys2Proof.Machine.execAand p dst rs1 rs2 s
  | .aior p dst rs1 rs2 => Sys2Proof.Machine.execAior p dst rs1 rs2 s
  | .axor p dst rs1 rs2 => Sys2Proof.Machine.execAxor p dst rs1 rs2 s
  | .aslc p dst rs1 rs2 => Sys2Proof.Machine.execAslc p dst rs1 rs2 s
  | .asl p dst rs1 rs2 => Sys2Proof.Machine.execAsl p dst rs1 rs2 s
  | .asrc p dst rs1 rs2 => Sys2Proof.Machine.execAsrc p dst rs1 rs2 s
  | .asr p dst rs1 rs2 => Sys2Proof.Machine.execAsr p dst rs1 rs2 s
  | .asar p dst rs1 rs2 => Sys2Proof.Machine.execAsar p dst rs1 rs2 s
  | .aaddi p dst rs1 ul imm16 => Sys2Proof.Machine.execAaddi p dst rs1 ul imm16 s
  | .aadci p dst rs1 ul imm16 => Sys2Proof.Machine.execAadci p dst rs1 ul imm16 s
  | .asubi p dst rs1 ul imm16 => Sys2Proof.Machine.execAsubi p dst rs1 ul imm16 s
  | .asuci p dst rs1 ul imm16 => Sys2Proof.Machine.execAsuci p dst rs1 ul imm16 s
  | .aandi p dst rs1 ul imm16 => Sys2Proof.Machine.execAandi p dst rs1 ul imm16 s
  | .aiori p dst rs1 ul imm16 => Sys2Proof.Machine.execAiori p dst rs1 ul imm16 s
  | .axori p dst rs1 ul imm16 => Sys2Proof.Machine.execAxori p dst rs1 ul imm16 s
  | .aslci p dst rs1 ul imm16 => Sys2Proof.Machine.execAslci p dst rs1 ul imm16 s
  | .asli p dst rs1 ul imm16 => Sys2Proof.Machine.execAsli p dst rs1 ul imm16 s
  | .asrci p dst rs1 ul imm16 => Sys2Proof.Machine.execAsrci p dst rs1 ul imm16 s
  | .asri p dst rs1 ul imm16 => Sys2Proof.Machine.execAsri p dst rs1 ul imm16 s
  | .asari p dst rs1 ul imm16 => Sys2Proof.Machine.execAsari p dst rs1 ul imm16 s
  | .amul p dst rs1 rs2 => Sys2Proof.Machine.execAmul p dst rs1 rs2 s
  | .amuls p dst rs1 rs2 => Sys2Proof.Machine.execAmuls p dst rs1 rs2 s
  | .adiv p dst rs1 rs2 => Sys2Proof.Machine.execAdiv p dst rs1 rs2 s
  | .adivs p dst rs1 rs2 => Sys2Proof.Machine.execAdivs p dst rs1 rs2 s
  | .amulf p dst rs1 rs2 => Sys2Proof.Machine.execAmulf p dst rs1 rs2 s
  | .adivf p dst rs1 rs2 => Sys2Proof.Machine.execAdivf p dst rs1 rs2 s
  | .amuli p dst rs1 ul imm16 => Sys2Proof.Machine.execAmuli p dst rs1 ul imm16 s
  | .amulsi p dst rs1 ul imm16 => Sys2Proof.Machine.execAmulsi p dst rs1 ul imm16 s
  | .adivi p dst rs1 ul imm16 => Sys2Proof.Machine.execAdivi p dst rs1 ul imm16 s
  | .adivsi p dst rs1 ul imm16 => Sys2Proof.Machine.execAdivsi p dst rs1 ul imm16 s
  | .amulfi p dst rs1 ul imm16 => Sys2Proof.Machine.execAmulfi p dst rs1 ul imm16 s
  | .adivfi p dst rs1 ul imm16 => Sys2Proof.Machine.execAdivfi p dst rs1 ul imm16 s
  | .ld p dst rs1 imm17 => Sys2Proof.Machine.execLd p dst rs1 imm17 s
  | .ldu p dst rs1 imm17 => Sys2Proof.Machine.execLdu p dst rs1 imm17 s
  | .lds p dst rs1 imm17 => Sys2Proof.Machine.execLds p dst rs1 imm17 s
  | .pop p dst rs1 imm17 => Sys2Proof.Machine.execPop p dst rs1 imm17 s
  | .str p dst rs1 imm17 => Sys2Proof.Machine.execStr p dst rs1 imm17 s
  | .stu p dst rs1 imm17 => Sys2Proof.Machine.execStu p dst rs1 imm17 s
  | .sts p dst rs1 imm17 => Sys2Proof.Machine.execSts p dst rs1 imm17 s
  | .push p dst rs1 imm17 => Sys2Proof.Machine.execPush p dst rs1 imm17 s
  | .ald p dst rs1 imm17 => Sys2Proof.Machine.execAld p dst rs1 imm17 s
  | .aldu p dst rs1 imm17 => Sys2Proof.Machine.execAldu p dst rs1 imm17 s
  | .alds p dst rs1 imm17 => Sys2Proof.Machine.execAlds p dst rs1 imm17 s
  | .apop p dst rs1 imm17 => Sys2Proof.Machine.execApop p dst rs1 imm17 s
  | .srr p dst sr => Sys2Proof.Machine.execSrr p dst sr s
  | .srw p dst sr => Sys2Proof.Machine.execSrw p dst sr s
  | .trap p imm16 => Sys2Proof.Machine.execTrap p imm16 s
  | .spc p dstp => Sys2Proof.Machine.execSpc p dstp s
  | .spnc p dstp => Sys2Proof.Machine.execSpnc p dstp s
  | .brc p imm17 => Sys2Proof.Machine.execBrc p imm17 s
  | .brnc p imm17 => Sys2Proof.Machine.execBrnc p imm17 s
  | .spe p dstp rs1 rs2 => Sys2Proof.Machine.execSpe p dstp rs1 rs2 s
  | .spne p dstp rs1 rs2 => Sys2Proof.Machine.execSpne p dstp rs1 rs2 s
  | .bre p rs1 rs2 imm17 => Sys2Proof.Machine.execBre p rs1 rs2 imm17 s
  | .brne p rs1 rs2 imm17 => Sys2Proof.Machine.execBrne p rs1 rs2 imm17 s
  | .se p dst rs1 rs2 => Sys2Proof.Machine.execSe p dst rs1 rs2 s
  | .sne p dst rs1 rs2 => Sys2Proof.Machine.execSne p dst rs1 rs2 s
  | .sei p dst rs1 ul imm16 => Sys2Proof.Machine.execSei p dst rs1 ul imm16 s
  | .snei p dst rs1 ul imm16 => Sys2Proof.Machine.execSnei p dst rs1 ul imm16 s
  | .spl p dstp rs1 rs2 => Sys2Proof.Machine.execSpl p dstp rs1 rs2 s
  | .spnl p dstp rs1 rs2 => Sys2Proof.Machine.execSpnl p dstp rs1 rs2 s
  | .brl p rs1 rs2 imm17 => Sys2Proof.Machine.execBrl p rs1 rs2 imm17 s
  | .brnl p rs1 rs2 imm17 => Sys2Proof.Machine.execBrnl p rs1 rs2 imm17 s
  | .slt p dst rs1 rs2 => Sys2Proof.Machine.execSlt p dst rs1 rs2 s
  | .snlt p dst rs1 rs2 => Sys2Proof.Machine.execSnlt p dst rs1 rs2 s
  | .slti p dst rs1 ul imm16 => Sys2Proof.Machine.execSlti p dst rs1 ul imm16 s
  | .snlti p dst rs1 ul imm16 => Sys2Proof.Machine.execSnlti p dst rs1 ul imm16 s
  | .spg p dstp rs1 rs2 => Sys2Proof.Machine.execSpg p dstp rs1 rs2 s
  | .spng p dstp rs1 rs2 => Sys2Proof.Machine.execSpng p dstp rs1 rs2 s
  | .brg p rs1 rs2 imm17 => Sys2Proof.Machine.execBrg p rs1 rs2 imm17 s
  | .brng p rs1 rs2 imm17 => Sys2Proof.Machine.execBrng p rs1 rs2 imm17 s
  | .sgt p dst rs1 rs2 => Sys2Proof.Machine.execSgt p dst rs1 rs2 s
  | .sngt p dst rs1 rs2 => Sys2Proof.Machine.execSngt p dst rs1 rs2 s
  | .sgti p dst rs1 ul imm16 => Sys2Proof.Machine.execSgti p dst rs1 ul imm16 s
  | .sngti p dst rs1 ul imm16 => Sys2Proof.Machine.execSngti p dst rs1 ul imm16 s
  | .spt p dstp => Sys2Proof.Machine.execSpt p dstp s
  | .spf p dstp => Sys2Proof.Machine.execSpf p dstp s
  | .br p imm17 => Sys2Proof.Machine.execBr p imm17 s
  | .set p dst => Sys2Proof.Machine.execSet p dst s
  | .clr p dst => Sys2Proof.Machine.execClr p dst s
  | .jmp p rs1 imm17 => Sys2Proof.Machine.execJmp p rs1 imm17 s
  | .jr p rs1 imm17 => Sys2Proof.Machine.execJr p rs1 imm17 s
  | .iret p => Sys2Proof.Machine.execIret p s

end Sys2Proof.Machine
end

