-- ==== Sys2Proof/Machine/Fetch.lean ====
section
/-! DEFINITION. Fetching an instruction from memory (20_memory.md R83, R88). -/

namespace Sys2Proof.Machine

/-- `FetchInstr(a)` in main memory: the dword at `a` and the dword two words higher, both modulo 2^32; the upper 22
bits of the second are discarded (20_memory.md R88). -/
def fetchInstr (m : Memory) (a : Addr) : InstrWord := instrOfDwords (readDword m a) (readDword m (a + 2))

/-- The instruction fetched at `pc`: two 32-bit reads, the low one first, of main memory or of a device (20_memory.md
R88, R93). -/
def State.fetch (s : State) : InstrWord :=
  instrOfDwords (s.loadDword s.pc) ((s.afterDword s.pc).loadDword (s.pc + 2))

/-- The state after the two reads of a fetch at `pc`. -/
def State.afterFetch (s : State) : State := (s.afterDword s.pc).afterDword (s.pc + 2)

/-- The four words a fetch at `a` accesses (20_memory.md R88). -/
def fetchWords (a : Addr) : List Addr := dwordAddrs a ++ dwordAddrs (a + 2)

/-- The memory map with main memory at the words given, and as it was at every other. -/
def State.mapWithRam (s : State) (ws : List Addr) : List MemoryRegion :=
  (ws.filter fun a => decide (s.memoryAt a ≠ .ram)).map (fun a => ⟨a, a, .ram⟩) ++ s.memoryMap

/-- Store the four words of an instruction where a fetch at `a` reads them, the first at the lowest address
(20_memory.md R83). -/
def storeInstr (m : Memory) (a : Addr) (ws : Word × Word × Word × Word) : Memory :=
  match ws with
  | (w0, w1, w2, w3) =>
    writeWord (writeWord (writeWord (writeWord m (clearBit0 a) w0) (clearBit0 a + 1) w1)
      (clearBit0 (a + 2)) w2) (clearBit0 (a + 2) + 1) w3

end Sys2Proof.Machine
end

