-- ==== Sys2Proof/Machine/Step.lean ====
section
/-! DEFINITION. One step of the processor: the boundary before an instruction, then the instruction (60_exceptions.md
R405, 30_encoding.md R118). -/

namespace Sys2Proof.Machine

/-- One step. At the boundary an enabled request is accepted, which is the whole step (60_exceptions.md R404, R405).
Otherwise the instruction at `pc` is fetched, decoded and run; an unassigned opcode is refused before its predicate is
looked at (30_encoding.md R118, R122). Time passes in either case (`State.beginStep`). -/
def step (s : State) : Host.Outcome State Fault Refusal :=
  match s.acceptedRequest with
  | some v => .next (s.beginStep.acceptInterrupt v)
  | none =>
    let b := s.beginStep
    onMemory b (fetchWords b.pc)
      (match decode b.fetch with
        | .instr i => exec i b.afterFetch
        | .unassigned op => .refused (.unassignedOpcode op))

/-- The state with an instruction of the opcode table stored at `pc`, so that the next step fetches and runs exactly it:
the four words of its two dwords are stored (the bits above `nbits` zero), the memory map is main memory at these words,
and a request that would be accepted at this boundary is withdrawn (the host's interface; log 25). -/
def State.withFetchWord (s : State) (nbits w : Nat) : State :=
  { s with
    mem := storeInstr s.mem s.pc (tableWords nbits w)
    memoryMap := s.mapWithRam (fetchWords s.pc)
    irqs := if s.acceptedRequest.isSome then none :: s.irqs.tail else s.irqs }

end Sys2Proof.Machine
end

