-- ==== Sys2Proof/Safety.lean ====
section
/-! DEFINITION. What the statements speak of: the invariant, frames, and which instructions write what. -/

namespace Sys2Proof.Machine

/-! ### The invariant -/

/-- What every step keeps: memory has its canonical form (20_memory.md R80; log 5), `pc` is even (10_state.md R41), and
the home slots of the hard-wired `r0` and `p0` hold their constants (10_state.md R31, R36). -/
structure State.Inv (s : State) : Prop where
  mem : s.mem.wf
  pcEven : s.pc.getLsbD 0 = false
  zeroSlot : s.regs[0] = 0
  trueSlot : s.preds[0] = true

/-! ### Frames -/

/-- What an instruction may write, beside `pc` and `sr.instrs`. -/
structure Writes where
  /-- Data registers. -/
  regs : List Reg := []
  /-- Predicate registers. -/
  preds : List Pred := []
  /-- `sr.carry`. -/
  carry : Bool := false
  /-- `sr.acarry`. -/
  acarry : Bool := false
  /-- `sr.ien`. -/
  ien : Bool := false
  /-- `sr.cycles`. -/
  cycles : Bool := false
  /-- `sr.mulms`. -/
  mulms : Bool := false
  /-- `sr.divmsi`. -/
  divmsi : Bool := false
  /-- `sr.divmso`. -/
  divmso : Bool := false
  /-- `sr.pc'`. -/
  pcSave : Bool := false
  /-- Memory words. -/
  words : List Addr := []
  /-- A device may see an access. -/
  devices : Bool := false
  deriving DecidableEq, Repr

/-- Is the byte `k` of the representation of memory one of the two of the word at `a`? -/
def inWord (k : Nat) (a : Addr) : Prop := k = 2 * a.toNat ∨ k = 2 * a.toNat + 1

/-- `t` is `s` in everything but `pc`, `sr.instrs` and what `w` names: every other data register, predicate and status
register, every byte of memory outside the words named, and the maps of the platform. -/
structure Frame (w : Writes) (s t : State) : Prop where
  regs : ∀ r, r ∉ w.regs → t.reg r = s.reg r
  preds : ∀ q, q ∉ w.preds → t.pred q = s.pred q
  carry : w.carry = false → t.carry = s.carry
  acarry : w.acarry = false → t.acarry = s.acarry
  ien : w.ien = false → t.ien = s.ien
  cycles : w.cycles = false → t.cycles = s.cycles
  mulms : w.mulms = false → t.mulms = s.mulms
  divmsi : w.divmsi = false → t.divmsi = s.divmsi
  divmso : w.divmso = false → t.divmso = s.divmso
  pcSave : w.pcSave = false → t.pcSave = s.pcSave
  bytes : ∀ k, (∀ a ∈ w.words, ¬ inWord k a) → readByte t.mem k = readByte s.mem k
  deviceLog : w.devices = false → t.deviceLog = s.deviceLog
  memoryMap : t.memoryMap = s.memoryMap
  extraSr : t.extraSr = s.extraSr
  irqs : t.irqs = s.irqs
  draws : t.draws = s.draws

/-- `t` is `s` completed in sequence: `pc` is the next instruction's address, one more instruction is counted, and
nothing else differs but what `w` names (10_state.md R40, R50). -/
structure Sequential (w : Writes) (s t : State) : Prop where
  pc : t.pc = s.pc + 4
  instrs : t.instrs = s.instrs + 1
  frame : Frame w s t

/-! ### Results -/

/-- Register `r` received `v`: `r0` still reads 0 (10_state.md R31). -/
def Received (t : State) (r : Reg) (v : Dword) : Prop := t.reg r = if r = 0 then 0 else v

/-- The result `v` went to `dst` as the modifier says (40_arith_addsub_logic.md R150, R153): it replaced the register,
or was added to its old value with the carry out of that addition in `sr.acarry`. -/
def PutsResult (m : Modifier) (dst : Reg) (v : Dword) (s t : State) : Prop :=
  match m with
  | .replace => Received t dst v ∧ t.acarry = s.acarry
  | .accumulate =>
    Received t dst (s.reg dst + v) ∧ t.acarry = decide (2 ^ 32 ≤ (s.reg dst).toNat + v.toNat)

end Sys2Proof.Machine

namespace Sys2Proof

/-- The words of the one access a memory instruction makes when it runs at `s` (44_memory_instr.md R290, 20_memory.md
R85, R87, R90); no other instruction makes one. -/
def Instr.memoryWords (i : Instr) (s : Machine.State) : List Addr :=
  match i with
  | .ld _ _ rs1 imm17 | .pop _ _ rs1 imm17 | .str _ _ rs1 imm17 | .push _ _ rs1 imm17 | .ald _ _ rs1 imm17
  | .apop _ _ rs1 imm17 => Machine.dwordAddrs (Machine.effectiveAddr (s.reg rs1) imm17)
  | .ldu _ _ rs1 imm17 | .lds _ _ rs1 imm17 | .stu _ _ rs1 imm17 | .sts _ _ rs1 imm17 | .aldu _ _ rs1 imm17
  | .alds _ _ rs1 imm17 => [Machine.effectiveAddr (s.reg rs1) imm17]
  | .add .. | .adc .. | .sub .. | .suc .. | .and .. | .ior .. | .xor .. | .addi .. | .adci .. | .subi ..
  | .suci .. | .andi .. | .iori .. | .xori .. | .aadd .. | .aadc .. | .asub .. | .asuc .. | .aand ..
  | .aior .. | .axor .. | .aaddi .. | .aadci .. | .asubi .. | .asuci .. | .aandi .. | .aiori .. | .axori ..
  | .slc .. | .sl .. | .src .. | .sr .. | .sar .. | .slci .. | .sli .. | .srci .. | .sri .. | .sari ..
  | .aslc .. | .asl .. | .asrc .. | .asr .. | .asar .. | .aslci .. | .asli .. | .asrci .. | .asri ..
  | .asari .. | .mul .. | .muls .. | .div .. | .divs .. | .mulf .. | .divf .. | .muli .. | .mulsi ..
  | .divi .. | .divsi .. | .mulfi .. | .divfi .. | .amul .. | .amuls .. | .adiv .. | .adivs .. | .amulf ..
  | .adivf .. | .amuli .. | .amulsi .. | .adivi .. | .adivsi .. | .amulfi .. | .adivfi .. | .spc ..
  | .spnc .. | .spe .. | .spne .. | .spl .. | .spnl .. | .spg .. | .spng .. | .spt .. | .spf .. | .brc ..
  | .brnc .. | .bre .. | .brne .. | .brl .. | .brnl .. | .brg .. | .brng .. | .br .. | .jmp .. | .jr ..
  | .iret .. | .se .. | .sne .. | .sei .. | .snei .. | .slt .. | .snlt .. | .slti .. | .snlti .. | .sgt ..
  | .sngt .. | .sgti .. | .sngti .. | .set .. | .clr .. | .nop .. | .srr .. | .srw .. | .trap .. => []

/-- The status register an instruction names: `srr` and `srw` name one (48_misc_system.md R371, R372). -/
def Instr.srAddr (i : Instr) : Option SrAddr :=
  match i with
  | .srr _ _ a | .srw _ _ a => some a
  | .add .. | .adc .. | .sub .. | .suc .. | .and .. | .ior .. | .xor .. | .addi .. | .adci .. | .subi ..
  | .suci .. | .andi .. | .iori .. | .xori .. | .aadd .. | .aadc .. | .asub .. | .asuc .. | .aand ..
  | .aior .. | .axor .. | .aaddi .. | .aadci .. | .asubi .. | .asuci .. | .aandi .. | .aiori .. | .axori ..
  | .slc .. | .sl .. | .src .. | .sr .. | .sar .. | .slci .. | .sli .. | .srci .. | .sri .. | .sari ..
  | .aslc .. | .asl .. | .asrc .. | .asr .. | .asar .. | .aslci .. | .asli .. | .asrci .. | .asri ..
  | .asari .. | .mul .. | .muls .. | .div .. | .divs .. | .mulf .. | .divf .. | .muli .. | .mulsi ..
  | .divi .. | .divsi .. | .mulfi .. | .divfi .. | .amul .. | .amuls .. | .adiv .. | .adivs .. | .amulf ..
  | .adivf .. | .amuli .. | .amulsi .. | .adivi .. | .adivsi .. | .amulfi .. | .adivfi .. | .spc ..
  | .spnc .. | .spe .. | .spne .. | .spl .. | .spnl .. | .spg .. | .spng .. | .spt .. | .spf .. | .ld ..
  | .ldu .. | .lds .. | .pop .. | .str .. | .stu .. | .sts .. | .push .. | .ald .. | .aldu .. | .alds ..
  | .apop .. | .brc .. | .brnc .. | .bre .. | .brne .. | .brl .. | .brnl .. | .brg .. | .brng .. | .br ..
  | .jmp .. | .jr .. | .iret .. | .se .. | .sne .. | .sei .. | .snei .. | .slt .. | .snlt .. | .slti ..
  | .snlti .. | .sgt .. | .sngt .. | .sgti .. | .sngti .. | .set .. | .clr .. | .nop .. | .trap .. => none

/-- Does an instruction reach a device when it runs at `s`, through `MEMORY_MAP` or `EXTRA_SR` (00_scope.md R9)? -/
def Instr.reachesDevice (i : Instr) (s : Machine.State) : Bool :=
  (i.memoryWords s).any (fun a => (s.deviceAt a).isSome) || (i.srAddr.bind s.srDevice).isSome

/-- The words of a store that reach main memory (20_memory.md R93). -/
def storedWords (s : Machine.State) (ws : List Addr) : List Addr := ws.filter fun a => (s.deviceAt a).isNone

/-- What an instruction may write in the processor and in memory when it runs at `s`, beside `pc` and `sr.instrs`: the
"written" lists of the rules of 40 to 48 for each instruction, and of 10_state.md R37 (predicates), R60 (`carry`), R61
(`acarry`), R51, R53, R56, R58 (status registers), 20_memory.md R86, R87, R90 (memory words). -/
def Instr.writesInside (i : Instr) (s : Machine.State) : Machine.Writes :=
  match i with
  | .nop .. => { }
  | .and _ dst _ _ | .ior _ dst _ _ | .xor _ dst _ _ | .sl _ dst _ _ | .sr _ dst _ _ | .sar _ dst _ _
  | .andi _ dst _ _ _ | .iori _ dst _ _ _ | .xori _ dst _ _ _ | .sli _ dst _ _ _ | .sri _ dst _ _ _
  | .sari _ dst _ _ _ | .muls _ dst _ _ | .divs _ dst _ _ | .mulf _ dst _ _ | .divf _ dst _ _
  | .mulsi _ dst _ _ _ | .divsi _ dst _ _ _ | .mulfi _ dst _ _ _ | .divfi _ dst _ _ _ | .ld _ dst _ _
  | .ldu _ dst _ _ | .lds _ dst _ _ | .srr _ dst _ | .se _ dst _ _ | .sne _ dst _ _ | .sei _ dst _ _ _
  | .snei _ dst _ _ _ | .slt _ dst _ _ | .snlt _ dst _ _ | .slti _ dst _ _ _ | .snlti _ dst _ _ _
  | .sgt _ dst _ _ | .sngt _ dst _ _ | .sgti _ dst _ _ _ | .sngti _ dst _ _ _ | .set _ dst | .clr _ dst =>
    { regs := [dst] }
  | .add _ dst _ _ | .addi _ dst _ _ _ | .adc _ dst _ _ | .adci _ dst _ _ _ | .sub _ dst _ _ | .subi _ dst _ _ _
  | .suc _ dst _ _ | .suci _ dst _ _ _ | .slc _ dst _ _ | .slci _ dst _ _ _ | .src _ dst _ _ | .srci _ dst _ _ _ =>
    { regs := [dst], carry := true }
  | .aand _ dst _ _ | .aandi _ dst _ _ _ | .aior _ dst _ _ | .aiori _ dst _ _ _ | .axor _ dst _ _
  | .axori _ dst _ _ _ | .asl _ dst _ _ | .asli _ dst _ _ _ | .asr _ dst _ _ | .asri _ dst _ _ _
  | .asar _ dst _ _ | .asari _ dst _ _ _ | .amuls _ dst _ _ | .amulsi _ dst _ _ _ | .amulf _ dst _ _
  | .amulfi _ dst _ _ _ | .adivs _ dst _ _ | .adivsi _ dst _ _ _ | .adivf _ dst _ _ | .adivfi _ dst _ _ _
  | .ald _ dst _ _ | .aldu _ dst _ _ | .alds _ dst _ _ => { regs := [dst], acarry := true }
  | .aadd _ dst _ _ | .aaddi _ dst _ _ _ | .aadc _ dst _ _ | .aadci _ dst _ _ _ | .asub _ dst _ _
  | .asubi _ dst _ _ _ | .asuc _ dst _ _ | .asuci _ dst _ _ _ | .aslc _ dst _ _ | .aslci _ dst _ _ _
  | .asrc _ dst _ _ | .asrci _ dst _ _ _ => { regs := [dst], carry := true, acarry := true }
  | .mul _ dst _ _ | .muli _ dst _ _ _ => { regs := [dst], mulms := true }
  | .amul _ dst _ _ | .amuli _ dst _ _ _ => { regs := [dst], acarry := true, mulms := true }
  | .div _ dst _ _ | .divi _ dst _ _ _ => { regs := [dst], divmso := true }
  | .adiv _ dst _ _ | .adivi _ dst _ _ _ => { regs := [dst], acarry := true, divmso := true }
  | .spc _ dstp | .spnc _ dstp | .spe _ dstp _ _ | .spne _ dstp _ _ | .spl _ dstp _ _ | .spnl _ dstp _ _
  | .spg _ dstp _ _ | .spng _ dstp _ _ | .spt _ dstp | .spf _ dstp => { preds := [dstp] }
  | .pop _ dst rs1 _ => { regs := [dst, rs1] }
  | .apop _ dst rs1 _ => { regs := [dst, rs1], acarry := true }
  | .str _ _ rs1 imm17 =>
    { words := storedWords s (Machine.dwordAddrs (Machine.effectiveAddr (s.reg rs1) imm17)) }
  | .stu _ _ rs1 imm17 | .sts _ _ rs1 imm17 =>
    { words := storedWords s [Machine.effectiveAddr (s.reg rs1) imm17] }
  | .push _ _ rs1 imm17 =>
    { regs := [rs1], words := storedWords s (Machine.dwordAddrs (Machine.effectiveAddr (s.reg rs1) imm17)) }
  | .brc .. | .brnc .. | .bre .. | .brne .. | .brl .. | .brnl .. | .brg .. | .brng .. | .br .. | .jmp ..
  | .jr .. => { regs := [Machine.linkReg] }
  | .iret .. => { ien := true }
  | .trap .. => { ien := true, pcSave := true }
  | .srw _ _ a =>
    { ien := a == 0x3, cycles := a == 0x4, mulms := a == 0x6, divmsi := a == 0x7, divmso := a == 0x8,
      carry := a == 0x9, acarry := a == 0xA, pcSave := a == 0xB }

/-- Everything an instruction may write when it runs at `s`, beside `pc` and `sr.instrs`. -/
def Instr.writes (i : Instr) (s : Machine.State) : Machine.Writes :=
  { i.writesInside s with devices := i.reachesDevice s }

end Sys2Proof
end

