-- ==== Sys2Proof/WellFormed.lean ====
section
/-! DEFINITION. Which instructions and which instruction words are well formed. -/

namespace Sys2Proof

/-! ### Instructions -/

/-- An instruction is well formed unless it is a `pop` or `apop` whose `dst` and `rs1` are one register other than `r0`:
of those the spec specifies no result, and programs must not contain them (44_memory_instr.md R292,
70_reset_and_hazards.md R464). The machine runs them with a free value (log 7). -/
def Instr.wellFormed (i : Instr) : Bool :=
  match i with
  | .pop _ dst rs1 _ => !(decide (dst = rs1) && decide (dst ≠ 0))
  | .apop _ dst rs1 _ => !(decide (dst = rs1) && decide (dst ≠ 0))
  | .nop .. | .add .. | .adc .. | .sub .. | .suc .. | .and .. | .ior .. | .xor .. | .slc .. | .sl .. | .src ..
  | .sr .. | .sar .. | .addi .. | .adci .. | .subi .. | .suci .. | .andi .. | .iori .. | .xori .. | .slci ..
  | .sli .. | .srci .. | .sri .. | .sari .. | .mul .. | .muls .. | .div .. | .divs .. | .mulf .. | .divf ..
  | .muli .. | .mulsi .. | .divi .. | .divsi .. | .mulfi .. | .divfi .. | .aadd .. | .aadc .. | .asub ..
  | .asuc .. | .aand .. | .aior .. | .axor .. | .aslc .. | .asl .. | .asrc .. | .asr .. | .asar .. | .aaddi ..
  | .aadci .. | .asubi .. | .asuci .. | .aandi .. | .aiori .. | .axori .. | .aslci .. | .asli .. | .asrci ..
  | .asri .. | .asari .. | .amul .. | .amuls .. | .adiv .. | .adivs .. | .amulf .. | .adivf .. | .amuli ..
  | .amulsi .. | .adivi .. | .adivsi .. | .amulfi .. | .adivfi .. | .ld .. | .ldu .. | .lds .. | .str ..
  | .stu .. | .sts .. | .push .. | .ald .. | .aldu .. | .alds .. | .srr .. | .srw .. | .trap .. | .spc ..
  | .spnc .. | .brc .. | .brnc .. | .spe .. | .spne .. | .bre .. | .brne .. | .se .. | .sne .. | .sei ..
  | .snei .. | .spl .. | .spnl .. | .brl .. | .brnl .. | .slt .. | .snlt .. | .slti .. | .snlti .. | .spg ..
  | .spng .. | .brg .. | .brng .. | .sgt .. | .sngt .. | .sgti .. | .sngti .. | .spt .. | .spf .. | .br ..
  | .set .. | .clr .. | .jmp .. | .jr .. | .iret .. => true

/-! ### Instruction words: the bits an instruction reads (30_encoding.md R111 to R118, R123) -/

/-- No operand but the predicate: bits 10:0 (30_encoding.md R123). -/
def usedNone : InstrWord := 0x000000007FF

/-- Format R (R111). -/
def usedR : InstrWord := 0x0007EFDFFFF

/-- Format I (R112). -/
def usedI : InstrWord := 0x3FFFEFDFFFF

/-- Format M (R114). -/
def usedM : InstrWord := 0x3FFFEFDFFFF

/-- `srr`, `srw`: `dst` and `imm16` (R112, R123). -/
def usedSr : InstrWord := 0x3FFFC01FFFF

/-- `trap`: `imm16` (R112, R123), whose bits above the low `TRAP_NUM_BITS` its rule drops
(48_misc_system.md R373; log 23). -/
def usedImm16 : InstrWord := 0x3FFFC0007FF

/-- `spc`, `spnc`, `spt`, `spf`: `dstp` (R113, R123). -/
def usedDstp : InstrWord := 0x00000003FFF

/-- `brc`, `brnc`, `br`: `imm17` (R115, R123). -/
def usedImm17 : InstrWord := 0x3FFFE0007FF

/-- Format P (R113). -/
def usedP : InstrWord := 0x0007EFC3FFF

/-- Format B (R115). -/
def usedB : InstrWord := 0x3FFFEFDFFFF

/-- `set`, `clr`: `dst` (R111, R123). -/
def usedDst : InstrWord := 0x0000001FFFF

/-- Format J (R116). -/
def usedJ : InstrWord := 0x3FFFE01FFFF

/-- The bits of the word that the instruction reads: its opcode, its predicate and the fields it has. The others are the
unused bits (30_encoding.md R117) and the fields it ignores (R123). -/
def Instr.usedBits (i : Instr) : InstrWord :=
  match i with
  | .nop .. | .iret .. => usedNone
  | .add .. | .adc .. | .sub .. | .suc .. | .and .. | .ior .. | .xor .. | .slc .. | .sl .. | .src .. | .sr ..
  | .sar .. | .mul .. | .muls .. | .div .. | .divs .. | .mulf .. | .divf .. | .aadd .. | .aadc .. | .asub ..
  | .asuc .. | .aand .. | .aior .. | .axor .. | .aslc .. | .asl .. | .asrc .. | .asr .. | .asar .. | .amul ..
  | .amuls .. | .adiv .. | .adivs .. | .amulf .. | .adivf .. | .se .. | .sne .. | .slt .. | .snlt .. | .sgt ..
  | .sngt .. => usedR
  | .addi .. | .adci .. | .subi .. | .suci .. | .andi .. | .iori .. | .xori .. | .slci .. | .sli .. | .srci ..
  | .sri .. | .sari .. | .muli .. | .mulsi .. | .divi .. | .divsi .. | .mulfi .. | .divfi .. | .aaddi ..
  | .aadci .. | .asubi .. | .asuci .. | .aandi .. | .aiori .. | .axori .. | .aslci .. | .asli .. | .asrci ..
  | .asri .. | .asari .. | .amuli .. | .amulsi .. | .adivi .. | .adivsi .. | .amulfi .. | .adivfi .. | .sei ..
  | .snei .. | .slti .. | .snlti .. | .sgti .. | .sngti .. => usedI
  | .ld .. | .ldu .. | .lds .. | .pop .. | .str .. | .stu .. | .sts .. | .push .. | .ald .. | .aldu ..
  | .alds .. | .apop .. => usedM
  | .srr .. | .srw .. => usedSr
  | .trap .. => usedImm16
  | .spc .. | .spnc .. | .spt .. | .spf .. => usedDstp
  | .brc .. | .brnc .. | .br .. => usedImm17
  | .spe .. | .spne .. | .spl .. | .spnl .. | .spg .. | .spng .. => usedP
  | .bre .. | .brne .. | .brl .. | .brnl .. | .brg .. | .brng .. => usedB
  | .set .. | .clr .. => usedDst
  | .jmp .. | .jr .. => usedJ

/-- A word is canonical when its opcode is assigned and every bit its instruction does not read is 0, as an assembler
writes it (30_encoding.md R117, R123). -/
def canonicalWord (w : InstrWord) : Bool :=
  match decode w with
  | .instr i => w &&& i.usedBits == w
  | .unassigned _ => false

end Sys2Proof
end

