-- ==== Sys2Proof/Certificates/Slice0/Obligations.lean ====
section
/-! DEFINITION. The statements for the provers. A docstring names the rules of spec/ a statement formalises, and the
decisions of the spec (92_eei_decisions.md, D<n>) it rests on. -/

open Sys2Proof Sys2Proof.Machine

/-! ### Encoding -/

/-- Decoding an encoded instruction gives it back, every operand at every value its field holds (30_encoding.md R111
to R118, R120). -/
def Obligations.DecodeEncode : Prop := ∀ i : Instr, decode (encode i) = .instr i

/-- Encoding a decoded instruction gives the word back but for the bits the instruction does not read, which are 0
(30_encoding.md R117, R123; D26). -/
def Obligations.EncodeDecode : Prop :=
  ∀ (w : InstrWord) (i : Instr), decode w = .instr i → encode i = w &&& i.usedBits

/-- Two words that agree on the bits an instruction reads decode alike (30_encoding.md R117, R123; D26). -/
def Obligations.UnreadBitsIgnored : Prop :=
  ∀ (v w : InstrWord) (i : Instr),
    decode w = .instr i → v &&& i.usedBits = w &&& i.usedBits → decode v = .instr i

/-- The decoder rejects exactly the words whose opcode is in the list of 30_encoding.md R122. -/
def Obligations.UnassignedOpcodesRejected : Prop :=
  ∀ w : InstrWord,
    (∃ op, decode w = .unassigned op) ↔
      ∃ r ∈ [(0x0D, 0x0F), (0x10, 0x10), (0x1D, 0x1F), (0x24, 0x27), (0x2A, 0x2F), (0x34, 0x37), (0x3A, 0x3F),
          (0x40, 0x40), (0x4D, 0x4F), (0x50, 0x50), (0x5D, 0x5F), (0x64, 0x67), (0x6A, 0x6F), (0x74, 0x77),
          (0x7A, 0x7F), (0x84, 0x87), (0x8C, 0x8F), (0x94, 0x9F), (0xA3, 0xAF), (0xB4, 0xBF), (0xC8, 0xCF),
          (0xD8, 0xDF), (0xE8, 0xEF), (0xF3, 0xF3), (0xF6, 0xFC)],
        r.1 ≤ w.toNat % 256 ∧ w.toNat % 256 ≤ r.2

/-- One word of each format, from the examples of the rules cited, decodes to the instruction it stands for. -/
def Obligations.DecodesExamples : Prop :=
  decode 0x000080C1001 = .instr (.add 0 2 3 4) ∧
  decode 0x3FFF40C1031 = .instr (.mulsi 0 2 3 false 0xFFFD) ∧
  decode 0x000080C08C0 = .instr (.spe 0 1 3 4) ∧
  decode 0x3FFFE0C1081 = .instr (.ldu 0 2 3 0x1FFFF) ∧
  decode 0x3FFFC1018C2 = .instr (.bre 0 3 4 0x1FFFE) ∧
  decode 0x000040018FE = .instr (.jr 0 3 2) ∧
  decode 0x000000010F4 = .instr (.set 0 2) ∧
  decode 0x0000C0010A1 = .instr (.srw 0 2 3) ∧
  decode 0x007FC0000A2 = .instr (.trap 0 0x1FF)

/-! ### Memory -/

/-- A 16-bit write is read back, and no other word changes, by a 16-bit read at any address (20_memory.md R84, R86). -/
def Obligations.WordReadAfterWrite : Prop :=
  ∀ (m : Memory) (a b : Addr) (v : Word), m.wf →
    readWord (writeWord m a v) b = if b = a then v else readWord m b

/-- The mixed-width view of 20_memory.md R91: a dword written at an even address is its low half there and its high
half at the next word, and two words written are read back as one dword (D3). -/
def Obligations.MixedWidthView : Prop :=
  ∀ (m : Memory) (a : Addr), m.wf → a.getLsbD 0 = false →
    (∀ v : Dword, readWord (writeDword m a v) a = v.extractLsb' 0 16 ∧
      readWord (writeDword m a v) (a + 1) = v.extractLsb' 16 16) ∧
    ∀ w0 w1 : Word, readDword (writeWord (writeWord m a w0) (a + 1) w1) a = w1 ++ w0

/-- A 32-bit write ignores bit 0 of its address, is read back at either of the two addresses of the dword, and
leaves every word outside the dword unchanged (20_memory.md R85, R87, R89). -/
def Obligations.DwordReadAfterWrite : Prop :=
  ∀ (m : Memory) (a b : Addr) (v : Dword), m.wf →
    (b.toNat / 2 = a.toNat / 2 → readDword (writeDword m a v) b = v) ∧
    (b.toNat / 2 ≠ a.toNat / 2 → readWord (writeDword m a v) b = readWord m b)

/-- Where the 42 bits of an instruction at an even address stand, all four addresses modulo 2^32 (20_memory.md R83,
R88; D3). -/
def Obligations.FetchLayout : Prop :=
  ∀ (m : Memory) (a : Addr), a.getLsbD 0 = false →
    fetchInstr m a = (readWord m (a + 2)).extractLsb' 0 10 ++ readWord m (a + 1) ++ readWord m a

/-! ### The step -/

/-- When no request is accepted at the boundary (none is present, or `sr.ien = 0`) and the instruction fetched at `pc`
decodes to `i`, the step is `exec i` at the state in which only the clock has advanced, by an unspecified amount, the
boundary has passed and a device has seen the fetch if it reached one: `State.beginStep` changes `cycles`, the request
stream and the model's step counter, nothing else, and a fetch from main memory reads the words at `pc` and changes
nothing (20_memory.md R88, R93, 30_encoding.md R118, 60_exceptions.md R404; log 12, 13, 14, 15, 48). -/
def Obligations.StepRunsDecodedInstruction : Prop :=
  ∀ (s : State) (i : Instr), (s.ien = false ∨ s.irqs.head?.join = none) →
    (∀ a ∈ fetchWords s.pc, s.memoryAt a ≠ .absent) → decode s.beginStep.fetch = .instr i →
    step s = exec i s.beginStep.afterFetch ∧
      s.beginStep = { s with
        cycles := s.beginStep.cycles
        irqs := s.irqs.tail
        draws := s.draws + 1 } ∧
      s.beginStep.afterFetch = { s.beginStep with deviceLog := s.beginStep.afterFetch.deviceLog } ∧
      ((∀ a ∈ fetchWords s.pc, s.memoryAt a = .ram) →
        s.beginStep.fetch = fetchInstr s.mem s.pc ∧ s.beginStep.afterFetch = s.beginStep)

/-- An instruction's encoding stored at `pc` is what the next step fetches and runs, at an even or odd `pc` and
wherever in the space it lies (20_memory.md R83, R88; log 25). -/
def Obligations.StoredInstructionRuns : Prop :=
  ∀ (s : State) (i : Instr), s.mem.wf →
    step (s.withFetchWord 42 (encode i).toNat) = exec i (s.withFetchWord 42 (encode i).toNat).beginStep

/-- An accepted hardware interrupt (60_exceptions.md R404, R405; D20, D24, D39, D40): `pc'` takes the address of the
instruction not yet executed, control goes to `8 * v`, `ien` becomes 0, the injected trap counts in `instrs`, and no
register, predicate, flag or memory byte changes. `cycles` advances by an unspecified amount (log 12). That the
acceptance is a whole step (log 27) and that it uses up the request (`t.irqs = rest`; log 14, where R406 leaves the
request to the environment) is the model's choice. -/
def Obligations.InterruptAccepted : Prop :=
  ∀ (s : State) (v : BitVec 7) (rest : List (Option (BitVec 7))), s.ien = true → s.irqs = some v :: rest →
    ∃ t, step s = .next t ∧ t.pcSave = s.pc ∧ t.pc.toNat = 8 * v.toNat ∧ t.ien = false ∧
      t.instrs = s.instrs + 1 ∧ t.irqs = rest ∧
      Frame { ien := true, pcSave := true, cycles := true } s { t with irqs := s.irqs, draws := s.draws }

/-- While `sr.ien = 0` the requests presented make no difference to what a step does (60_exceptions.md R404): two
states that differ in their request streams alone step alike, up to those streams. That the two steps receive the same
values where the spec leaves a value open is the model's choice: the advance of the clock (log 12), the result and
carry of `slc`, `src` by more than 32 (log 6), the register of a `pop`, `apop` into its base (log 7), and what a
device returns (log 48). So is it that each step uses up one entry of the stream (`stream.tail`; log 14). -/
def Obligations.DisabledInterruptsUnseen : Prop :=
  ∀ (s : State) (stream : List (Option (BitVec 7))), s.ien = false →
    match step s with
    | .next t => step { s with irqs := stream } = .next { t with irqs := stream.tail }
    | .fault e => step { s with irqs := stream } = .fault e
    | .refused e => step { s with irqs := stream } = .refused e

/-- What a step can do. It goes on, unless the instruction fetched has an unassigned opcode, which is refused by name
whatever its predicate (30_encoding.md R122; D25), or nothing answers at a word of the fetch or of the access of the
executed instruction, which faults at such a word. It never changes the maps of the platform (log 15, 16). That an
access where nothing answers faults is the model's choice (log 15): 60_exceptions.md R400 and 20_memory.md R93 leave it to
`MEMORY_MAP`, without a rule. That a step goes on also at an `slc`, `src` by more than 32 (log 6), where
93_implementation_defined.md U7 proposes a fault, and at a `pop`, `apop` with `dst = rs1` other than `r0` (log 7), which
R292, U4 and the table of R400 say a model refuses, is the model's choice, and so is it at an access to a device (log
48), which R93 lets a model take as a parameter or refuse. -/
def Obligations.StepGoesOn : Prop :=
  ∀ s : State,
    ((s.ien = false ∨ s.irqs.head?.join = none) →
      (∀ op, (∀ a ∈ fetchWords s.pc, s.memoryAt a ≠ .absent) → decode s.beginStep.fetch = .unassigned op →
        step s = .refused (.unassignedOpcode op)) ∧
      ((∃ a ∈ fetchWords s.pc, s.memoryAt a = .absent) →
        ∃ a ∈ fetchWords s.pc, s.memoryAt a = .absent ∧ step s = .fault (.nothingAt a))) ∧
    ((∃ t, step s = .next t ∧ t.memoryMap = s.memoryMap ∧ t.extraSr = s.extraSr) ∨
      (∃ op, step s = .refused (.unassignedOpcode op) ∧ decode s.beginStep.fetch = .unassigned op) ∨
      ∃ a, step s = .fault (.nothingAt a) ∧ s.memoryAt a = .absent ∧
        (a ∈ fetchWords s.pc ∨
          ∃ i, decode s.beginStep.fetch = .instr i ∧ s.pred i.predicate = true ∧ a ∈ i.memoryWords s))

/-- The trap-entry procedure of 60_exceptions.md R402: the return address to `pc'`, control to word address `8 * n`,
interrupts disabled, and nothing else changes. -/
def Obligations.TrapEntry : Prop :=
  ∀ (s : State) (n : Nat) (ret : Addr), n < 256 →
    let t := s.takeTrap n ret
    t.pcSave = ret ∧ t.pc.toNat = 8 * n ∧ t.ien = false ∧ t.instrs = s.instrs ∧ t.mem = s.mem ∧
      Frame { ien := true, pcSave := true } s t

/-! ### The invariant -/

/-- The state after reset has the invariant. -/
def Obligations.ResetInvariant : Prop := State.reset.Inv

/-- Every step keeps the invariant: memory stays canonical (20_memory.md R80), `pc` stays even (10_state.md R41),
and the hard-wired `r0` and `p0` keep their constants (10_state.md R31, R36). -/
def Obligations.StepKeepsInvariant : Prop :=
  ∀ s t : State, s.Inv → step s = .next t → t.Inv

/-- What reset sets (10_state.md R66, 70_reset_and_hazards.md R451): `pc = 0` is the spec's decision D1. Nothing is
said here of the state the spec leaves unspecified. -/
def Obligations.ResetValues : Prop :=
  State.reset.pc = 0 ∧ State.reset.ien = false ∧ State.reset.divmsi = 0 ∧ State.reset.carry = false ∧
    State.reset.acarry = false ∧ State.reset.reg 0 = 0 ∧ State.reset.pred 0 = true ∧
    readSr State.reset 0 = 0x0069DD80 ∧ readSr State.reset 1 = 0x00010000

/-! ### Every instruction -/

/-- Every instruction completes, whatever its predicate, where memory or a device answers at every word it accesses, if
it accesses any (60_exceptions.md R400: no synchronous exception; 20_memory.md R90, R93; D27, D37). That an executed one
faults at a word where nothing answers is the model's choice (log 15): R400 and R93 leave it to `MEMORY_MAP`, without a
rule. That the forms to which the spec gives no value complete, `slc`, `src` by more than 32 (log 6;
93_implementation_defined.md U7 proposes a fault) and `pop`, `apop` with `dst = rs1` other than `r0` (log 7; R292, D17,
U4 and the table of R400: the model refuses), is the model's choice, and so is it of an access to a device (log 48;
R93). -/
def Obligations.EveryInstructionCompletes : Prop :=
  ∀ (i : Instr) (s : State),
    ((∀ a ∈ i.memoryWords s, s.memoryAt a ≠ .absent) → ∃ t, exec i s = .next t) ∧
    (s.pred i.predicate = true → (∃ a ∈ i.memoryWords s, s.memoryAt a = .absent) →
      ∃ a ∈ i.memoryWords s, s.memoryAt a = .absent ∧ exec i s = .fault (.nothingAt a))

/-- An instruction whose predicate is False changes `pc` alone; it is not counted (30_encoding.md R118, 10_state.md
R50; D2, D20). -/
def Obligations.PredicatedOff : Prop :=
  ∀ (i : Instr) (s : State), s.pred i.predicate = false → exec i s = .next { s with pc := s.pc + 4 }

/-- An executed instruction counts once, as its last effect: after an `srw` of `v` to `instrs` it holds `v + 1`
(10_state.md R50; D20). -/
def Obligations.InstructionsCounted : Prop :=
  ∀ (i : Instr) (s t : State), s.pred i.predicate = true → exec i s = .next t →
    ((∀ p r, i ≠ .srw p r 5) → t.instrs = s.instrs + 1) ∧
    ∀ p r, i = .srw p r 5 → t.instrs = s.reg r + 1

/-- No instruction writes anything but what its rule names (`Instr.writes`): every other data register, predicate,
status register and byte of memory is unchanged (the "written" lists of 40 to 48; 10_state.md R37, R51 to R53, R56,
R60, R61, 20_memory.md R90), and a device sees an access only of an instruction that reaches it (20_memory.md R93; log
48). For `slc`, `src` by more than 32 (log 6) and `pop`, `apop` into their base (log 7) it is the model's choice that
they complete and write no more. -/
def Obligations.OnlyNamedWrites : Prop :=
  ∀ (i : Instr) (s t : State), exec i s = .next t → Frame (i.writes s) s t

/-- A predicate changes only by one of the ten predicate instructions, which names it in `dstp`, and `p0` never does
(10_state.md R36, R37; D34). -/
def Obligations.PredicateWriters : Prop :=
  ∀ (i : Instr) (s t : State) (q : Pred), exec i s = .next t → t.pred q ≠ s.pred q →
    q ≠ 0 ∧ ∃ p rs1 rs2, i ∈ [.spc p q, .spnc p q, .spe p q rs1 rs2, .spne p q rs1 rs2, .spl p q rs1 rs2,
      .spnl p q rs1 rs2, .spg p q rs1 rs2, .spng p q rs1 rs2, .spt p q, .spf p q]

/-- `sr.carry` changes only by the 24 instructions of 10_state.md R60 and by `srw` to 0009h. -/
def Obligations.CarryWriters : Prop :=
  ∀ (i : Instr) (s t : State), exec i s = .next t → t.carry ≠ s.carry →
    ∃ p dst rs1 rs2 ul imm16, i ∈ [
      .add p dst rs1 rs2, .addi p dst rs1 ul imm16, .aadd p dst rs1 rs2, .aaddi p dst rs1 ul imm16,
      .adc p dst rs1 rs2, .adci p dst rs1 ul imm16, .aadc p dst rs1 rs2, .aadci p dst rs1 ul imm16,
      .sub p dst rs1 rs2, .subi p dst rs1 ul imm16, .asub p dst rs1 rs2, .asubi p dst rs1 ul imm16,
      .suc p dst rs1 rs2, .suci p dst rs1 ul imm16, .asuc p dst rs1 rs2, .asuci p dst rs1 ul imm16,
      .slc p dst rs1 rs2, .slci p dst rs1 ul imm16, .aslc p dst rs1 rs2, .aslci p dst rs1 ul imm16,
      .src p dst rs1 rs2, .srci p dst rs1 ul imm16, .asrc p dst rs1 rs2, .asrci p dst rs1 ul imm16,
      .srw p dst 9]

/-- Control leaves the sequence only by a branch, a jump or a `trap` (10_state.md R40; D2). -/
def Obligations.ControlTransfers : Prop :=
  ∀ (i : Instr) (s t : State), exec i s = .next t → t.pc ≠ s.pc + 4 →
    ∃ p rs1 rs2 imm17 imm16, i ∈ [.brc p imm17, .brnc p imm17, .bre p rs1 rs2 imm17, .brne p rs1 rs2 imm17,
      .brl p rs1 rs2 imm17, .brnl p rs1 rs2 imm17, .brg p rs1 rs2 imm17, .brng p rs1 rs2 imm17, .br p imm17,
      .jmp p rs1 imm17, .jr p rs1 imm17, .iret p, .trap p imm16]

/-! ### Add, subtract, logic -/

/-- The eight forms of `add` and `adc` (40_arith_addsub_logic.md R160 to R167): the 33-bit sum `a + b + c` gives the
result and the carry, `b` a register or a zero-extended immediate (D9), `c` 0 or the old carry; the accumulating
forms add the result to `dst` (R153; D15). -/
def Obligations.AddInstructions : Prop :=
  ∀ (p : Pred) (dst rs1 rs2 : Reg) (ul : Bool) (imm16 : BitVec 16) (s : State), s.pred p = true →
    let imm : Dword := if ul then imm16 ++ 0#16 else imm16.zeroExtend 32
    ∀ (i : Instr) (m : Modifier) (b : Dword) (c : Nat),
      (i, m, b, c) ∈ [
        (.add p dst rs1 rs2, .replace, s.reg rs2, 0), (.addi p dst rs1 ul imm16, .replace, imm, 0),
        (.aadd p dst rs1 rs2, .accumulate, s.reg rs2, 0), (.aaddi p dst rs1 ul imm16, .accumulate, imm, 0),
        (.adc p dst rs1 rs2, .replace, s.reg rs2, s.carry.toNat),
        (.adci p dst rs1 ul imm16, .replace, imm, s.carry.toNat),
        (.aadc p dst rs1 rs2, .accumulate, s.reg rs2, s.carry.toNat),
        (.aadci p dst rs1 ul imm16, .accumulate, imm, s.carry.toNat)] →
      let sum := (s.reg rs1).toNat + b.toNat + c
      ∃ t, exec i s = .next t ∧ PutsResult m dst (BitVec.ofNat 32 sum) s t ∧ t.carry = decide (2 ^ 32 ≤ sum) ∧
        Sequential { regs := [dst], carry := true, acarry := true } s t

/-- The eight forms of `sub` and `suc` (40_arith_addsub_logic.md R168 to R175): the difference modulo 2^32, and the
borrow in `sr.carry` (D6; immediates D9, accumulation D15). -/
def Obligations.SubInstructions : Prop :=
  ∀ (p : Pred) (dst rs1 rs2 : Reg) (ul : Bool) (imm16 : BitVec 16) (s : State), s.pred p = true →
    let imm : Dword := if ul then imm16 ++ 0#16 else imm16.zeroExtend 32
    ∀ (i : Instr) (m : Modifier) (b : Dword) (c : Nat),
      (i, m, b, c) ∈ [
        (.sub p dst rs1 rs2, .replace, s.reg rs2, 0), (.subi p dst rs1 ul imm16, .replace, imm, 0),
        (.asub p dst rs1 rs2, .accumulate, s.reg rs2, 0), (.asubi p dst rs1 ul imm16, .accumulate, imm, 0),
        (.suc p dst rs1 rs2, .replace, s.reg rs2, s.carry.toNat),
        (.suci p dst rs1 ul imm16, .replace, imm, s.carry.toNat),
        (.asuc p dst rs1 rs2, .accumulate, s.reg rs2, s.carry.toNat),
        (.asuci p dst rs1 ul imm16, .accumulate, imm, s.carry.toNat)] →
      ∃ t, exec i s = .next t ∧ PutsResult m dst (s.reg rs1 - b - BitVec.ofNat 32 c) s t ∧
        t.carry = decide ((s.reg rs1).toNat < b.toNat + c) ∧
        Sequential { regs := [dst], carry := true, acarry := true } s t

/-- The twelve forms of `and`, `ior`, `xor` (40_arith_addsub_logic.md R176 to R187): every bit of the result from
the two bits of the operands, and the carry untouched (R60; immediates D9, accumulation D15). -/
def Obligations.LogicInstructions : Prop :=
  ∀ (p : Pred) (dst rs1 rs2 : Reg) (ul : Bool) (imm16 : BitVec 16) (s : State), s.pred p = true →
    let imm : Dword := if ul then imm16 ++ 0#16 else imm16.zeroExtend 32
    ∀ (i : Instr) (m : Modifier) (b : Dword) (f : Bool → Bool → Bool),
      (i, m, b, f) ∈ [
        (.and p dst rs1 rs2, .replace, s.reg rs2, and), (.andi p dst rs1 ul imm16, .replace, imm, and),
        (.aand p dst rs1 rs2, .accumulate, s.reg rs2, and), (.aandi p dst rs1 ul imm16, .accumulate, imm, and),
        (.ior p dst rs1 rs2, .replace, s.reg rs2, or), (.iori p dst rs1 ul imm16, .replace, imm, or),
        (.aior p dst rs1 rs2, .accumulate, s.reg rs2, or), (.aiori p dst rs1 ul imm16, .accumulate, imm, or),
        (.xor p dst rs1 rs2, .replace, s.reg rs2, xor), (.xori p dst rs1 ul imm16, .replace, imm, xor),
        (.axor p dst rs1 rs2, .accumulate, s.reg rs2, xor), (.axori p dst rs1 ul imm16, .accumulate, imm, xor)] →
      ∃ t v, exec i s = .next t ∧ (∀ k < 32, v.getLsbD k = f ((s.reg rs1).getLsbD k) (b.getLsbD k)) ∧
        PutsResult m dst v s t ∧ Sequential { regs := [dst], acarry := true } s t

/-- A two-dword addition: `add` of the low halves and then `adc` of the high halves into another register leaves the
64-bit sum (40_arith_addsub_logic.md R154, R155). The second instruction's sources are not the first one's
destination. -/
def Obligations.TwoDwordAddition : Prop :=
  ∀ (p q : Pred) (lo hi a0 a1 b0 b1 : Reg) (s t u : State), s.pred p = true → s.pred q = true →
    lo ≠ 0 → hi ≠ 0 → hi ≠ lo → a1 ≠ lo → b1 ≠ lo →
    exec (.add p lo a0 b0) s = .next t → exec (.adc q hi a1 b1) t = .next u →
    u.reg hi ++ u.reg lo = (s.reg a1 ++ s.reg a0) + (s.reg b1 ++ s.reg b0)

/-- `add` of two registers (40_arith_addsub_logic.md R160): its opcode and fields (the blank bits of format R 0), the
low 32 bits of the sum in `dst`, discarded when `dst = r0`, bit 32 of the sum in `sr.carry`, and control at the next
instruction. -/
def Obligations.AddRegisters : Prop :=
  (∀ w : InstrWord, w &&& usedR = w → w.extractLsb' 0 8 = 0x01#8 →
    decode w = .instr (.add (w.extractLsb' 8 3).toFin (w.extractLsb' 11 6).toFin (w.extractLsb' 18 6).toFin
      (w.extractLsb' 25 6).toFin)) ∧
  ∀ (p : Pred) (dst rs1 rs2 : Reg) (s : State), s.pred p = true →
    ∃ t, exec (.add p dst rs1 rs2) s = .next t ∧
      (dst ≠ 0 → (t.reg dst).toNat + 2 ^ 32 * t.carry.toNat = (s.reg rs1).toNat + (s.reg rs2).toNat) ∧
      (dst = 0 → t.reg dst = 0 ∧ t.carry = decide (2 ^ 32 ≤ (s.reg rs1).toNat + (s.reg rs2).toNat)) ∧
      t.pc = nextPc s.pc ∧ Frame { regs := [dst], carry := true } s t

/-- `and`, `ior`, `xor` of two registers (40_arith_addsub_logic.md R176, R180, R184): their opcodes and fields (the
blank bits of format R 0), and the result bit by bit; the carry and every other register are unchanged, and a result
for `r0` is discarded. -/
def Obligations.BitwiseRegisters : Prop :=
  (∀ (w : InstrWord) (op : Opcode) (mk : Pred → Reg → Reg → Reg → Instr),
    (op, mk) ∈ [((0x05 : Opcode), Instr.and), (0x06, Instr.ior), (0x07, Instr.xor)] → w &&& usedR = w →
    w.extractLsb' 0 8 = op →
    decode w = .instr (mk (w.extractLsb' 8 3).toFin (w.extractLsb' 11 6).toFin (w.extractLsb' 18 6).toFin
      (w.extractLsb' 25 6).toFin)) ∧
  ∀ (p : Pred) (dst rs1 rs2 : Reg) (s : State), s.pred p = true →
    ∀ (i : Instr) (f : Bool → Bool → Bool),
      (i, f) ∈ [(.and p dst rs1 rs2, and), (.ior p dst rs1 rs2, or), (.xor p dst rs1 rs2, xor)] →
      ∃ t, exec i s = .next t ∧
        (∀ k < 32, (t.reg dst).getLsbD k =
          (decide (dst ≠ 0) && f ((s.reg rs1).getLsbD k) ((s.reg rs2).getLsbD k))) ∧
        t.pc = nextPc s.pc ∧ Frame { regs := [dst] } s t

/-! ### Shifts -/

/-- The twelve forms of `sl`, `sr`, `sar` (41_arith_shift.md R200, R201, R209 to R212, R217 to R224) for either
value of `SHAMT_MASK5` (D7): bit `k` of the result is the bit `n` places away, 0 or a copy of bit 31 where there is
none; an amount of 32 or more shifts every bit out (immediates D9, accumulation D15). -/
def Obligations.ShiftInstructions : Prop :=
  ∀ (p : Pred) (dst rs1 rs2 : Reg) (ul : Bool) (imm16 : BitVec 16) (s : State), s.pred p = true →
    let imm : Dword := if ul then imm16 ++ 0#16 else imm16.zeroExtend 32
    let a := s.reg rs1
    let left : Nat → Nat → Bool := fun n k => decide (n ≤ k) && a.getLsbD (k - n)
    let right : Nat → Nat → Bool := fun n k => a.getLsbD (k + n)
    let arith : Nat → Nat → Bool := fun n k => a.getLsbD (min (k + n) 31)
    ∀ (i : Instr) (m : Modifier) (b : Dword) (bit : Nat → Nat → Bool),
      (i, m, b, bit) ∈ [
        (.sl p dst rs1 rs2, .replace, s.reg rs2, left), (.sli p dst rs1 ul imm16, .replace, imm, left),
        (.asl p dst rs1 rs2, .accumulate, s.reg rs2, left), (.asli p dst rs1 ul imm16, .accumulate, imm, left),
        (.sr p dst rs1 rs2, .replace, s.reg rs2, right), (.sri p dst rs1 ul imm16, .replace, imm, right),
        (.asr p dst rs1 rs2, .accumulate, s.reg rs2, right), (.asri p dst rs1 ul imm16, .accumulate, imm, right),
        (.sar p dst rs1 rs2, .replace, s.reg rs2, arith), (.sari p dst rs1 ul imm16, .replace, imm, arith),
        (.asar p dst rs1 rs2, .accumulate, s.reg rs2, arith),
        (.asari p dst rs1 ul imm16, .accumulate, imm, arith)] →
      let n := if Config.shamtMask5 then b.toNat % 32 else b.toNat
      ∃ t v, exec i s = .next t ∧ (∀ k < 32, v.getLsbD k = bit n k) ∧ PutsResult m dst v s t ∧
        Sequential { regs := [dst], acarry := true } s t

/-- The four forms of `slc` by an amount of 0 to 32 (41_arith_shift.md R202, R205 to R208): with the carry above the
value, the old carry enters at bit `n - 1`, zeros below it, and the lowest evicted bit becomes the carry; an amount
of 0 changes neither (D7, D8; immediates D9, accumulation D15). -/
def Obligations.LeftShiftsThroughCarry : Prop :=
  ∀ (p : Pred) (dst rs1 rs2 : Reg) (ul : Bool) (imm16 : BitVec 16) (s : State), s.pred p = true →
    let imm : Dword := if ul then imm16 ++ 0#16 else imm16.zeroExtend 32
    ∀ (i : Instr) (m : Modifier) (b : Dword),
      (i, m, b) ∈ [
        (.slc p dst rs1 rs2, .replace, s.reg rs2), (.slci p dst rs1 ul imm16, .replace, imm),
        (.aslc p dst rs1 rs2, .accumulate, s.reg rs2), (.aslci p dst rs1 ul imm16, .accumulate, imm)] →
      let n := if Config.shamtMask5 then b.toNat % 32 else b.toNat
      n ≤ 32 →
      ∃ t v, exec i s = .next t ∧
        (∀ k < 32, v.getLsbD k =
          if k + 1 = n then s.carry else decide (n ≤ k) && (s.reg rs1).getLsbD (k - n)) ∧
        t.carry = (if n = 0 then s.carry else (s.reg rs1).getLsbD (32 - n)) ∧
        PutsResult m dst v s t ∧ Sequential { regs := [dst], carry := true, acarry := true } s t

/-- The four forms of `src` by an amount of 0 to 32 (41_arith_shift.md R202, R213 to R216): the old carry enters at
bit `32 - n`, zeros above it, and the highest evicted bit becomes the carry; an amount of 0 changes neither
(D7, D8; immediates D9, accumulation D15). -/
def Obligations.RightShiftsThroughCarry : Prop :=
  ∀ (p : Pred) (dst rs1 rs2 : Reg) (ul : Bool) (imm16 : BitVec 16) (s : State), s.pred p = true →
    let imm : Dword := if ul then imm16 ++ 0#16 else imm16.zeroExtend 32
    ∀ (i : Instr) (m : Modifier) (b : Dword),
      (i, m, b) ∈ [
        (.src p dst rs1 rs2, .replace, s.reg rs2), (.srci p dst rs1 ul imm16, .replace, imm),
        (.asrc p dst rs1 rs2, .accumulate, s.reg rs2), (.asrci p dst rs1 ul imm16, .accumulate, imm)] →
      let n := if Config.shamtMask5 then b.toNat % 32 else b.toNat
      n ≤ 32 →
      ∃ t v, exec i s = .next t ∧
        (∀ k < 32, v.getLsbD k = if k + n = 32 then s.carry else (s.reg rs1).getLsbD (k + n)) ∧
        t.carry = (if n = 0 then s.carry else (s.reg rs1).getLsbD (n - 1)) ∧
        PutsResult m dst v s t ∧ Sequential { regs := [dst], carry := true, acarry := true } s t

/-- The eight forms of `slc` and `src` by an amount operand above 32, for either value of `SHAMT_MASK5` (D7, D9, D15):
with `SHAMT_MASK5 = false` the spec specifies neither the result nor the carry (41_arith_shift.md R202;
93_implementation_defined.md U7). That the instruction then completes with one free result and one free carry, and
nothing else free, is the model's choice (log 6). -/
def Obligations.ShiftsThroughCarryBeyond32 : Prop :=
  ∀ (p : Pred) (dst rs1 rs2 : Reg) (ul : Bool) (imm16 : BitVec 16) (s : State), s.pred p = true →
    let imm : Dword := if ul then imm16 ++ 0#16 else imm16.zeroExtend 32
    ∀ (i : Instr) (m : Modifier) (b : Dword),
      (i, m, b) ∈ [
        (.slc p dst rs1 rs2, .replace, s.reg rs2), (.slci p dst rs1 ul imm16, .replace, imm),
        (.aslc p dst rs1 rs2, .accumulate, s.reg rs2), (.aslci p dst rs1 ul imm16, .accumulate, imm),
        (.src p dst rs1 rs2, .replace, s.reg rs2), (.srci p dst rs1 ul imm16, .replace, imm),
        (.asrc p dst rs1 rs2, .accumulate, s.reg rs2), (.asrci p dst rs1 ul imm16, .accumulate, imm)] →
      32 < b.toNat →
      ∃ t v, exec i s = .next t ∧ PutsResult m dst v s t ∧
        Sequential { regs := [dst], carry := true, acarry := true } s t

/-! ### Multiply and divide -/

/-- The four forms of `mul` (42_arith_muldiv.md R231, R240 to R243): `mulms : r` is the 64-bit product of the
unsigned operands, `r` the result (immediates D9, accumulation D15, which does not touch `mulms`). -/
def Obligations.UnsignedMultiplies : Prop :=
  ∀ (p : Pred) (dst rs1 rs2 : Reg) (ul : Bool) (imm16 : BitVec 16) (s : State), s.pred p = true →
    let imm : Dword := if ul then imm16 ++ 0#16 else imm16.zeroExtend 32
    ∀ (i : Instr) (m : Modifier) (b : Dword),
      (i, m, b) ∈ [
        (.mul p dst rs1 rs2, .replace, s.reg rs2), (.muli p dst rs1 ul imm16, .replace, imm),
        (.amul p dst rs1 rs2, .accumulate, s.reg rs2), (.amuli p dst rs1 ul imm16, .accumulate, imm)] →
      ∃ t r, exec i s = .next t ∧ t.mulms.toNat * 2 ^ 32 + r.toNat = (s.reg rs1).toNat * b.toNat ∧
        PutsResult m dst r s t ∧ Sequential { regs := [dst], acarry := true, mulms := true } s t

/-- The four forms of `muls` (42_arith_muldiv.md R232, R244 to R247): the result is the low 32 bits of the exact
signed product, which are those of the unsigned product; `mulms` is not written (D10; sign-extended immediate D9). -/
def Obligations.SignedMultiplies : Prop :=
  ∀ (p : Pred) (dst rs1 rs2 : Reg) (ul : Bool) (imm16 : BitVec 16) (s : State), s.pred p = true →
    let imm : Dword := if ul then imm16 ++ 0#16 else imm16.signExtend 32
    ∀ (i : Instr) (m : Modifier) (b : Dword),
      (i, m, b) ∈ [
        (.muls p dst rs1 rs2, .replace, s.reg rs2), (.mulsi p dst rs1 ul imm16, .replace, imm),
        (.amuls p dst rs1 rs2, .accumulate, s.reg rs2), (.amulsi p dst rs1 ul imm16, .accumulate, imm)] →
      ∃ t r, exec i s = .next t ∧ r = BitVec.ofInt 32 ((s.reg rs1).toInt * b.toInt) ∧ r = s.reg rs1 * b ∧
        PutsResult m dst r s t ∧ Sequential { regs := [dst], acarry := true } s t

/-- The four forms of `mulf` (42_arith_muldiv.md R233, R256 to R259): the exact product of the two signed numbers,
divided by 2^16 and rounded toward minus infinity, modulo 2^32 (D10, D11; sign-extended immediate D9). -/
def Obligations.FixedPointMultiplies : Prop :=
  ∀ (p : Pred) (dst rs1 rs2 : Reg) (ul : Bool) (imm16 : BitVec 16) (s : State), s.pred p = true →
    let imm : Dword := if ul then imm16 ++ 0#16 else imm16.signExtend 32
    ∀ (i : Instr) (m : Modifier) (b : Dword),
      (i, m, b) ∈ [
        (.mulf p dst rs1 rs2, .replace, s.reg rs2), (.mulfi p dst rs1 ul imm16, .replace, imm),
        (.amulf p dst rs1 rs2, .accumulate, s.reg rs2), (.amulfi p dst rs1 ul imm16, .accumulate, imm)] →
      ∃ t, exec i s = .next t ∧
        PutsResult m dst (BitVec.ofInt 32 (((s.reg rs1).toInt * b.toInt).fdiv (2 ^ 16))) s t ∧
        Sequential { regs := [dst], acarry := true } s t

/-- The four forms of `div` by a divisor that is not 0 (42_arith_muldiv.md R234, R248 to R251): the 64-bit quotient
`q = divmso : r` of `divmsi : a` is the one number with `q * b ≤ N < (q + 1) * b`, `r` the result (D13; immediates
D9, accumulation D15). -/
def Obligations.UnsignedDivides : Prop :=
  ∀ (p : Pred) (dst rs1 rs2 : Reg) (ul : Bool) (imm16 : BitVec 16) (s : State), s.pred p = true →
    let imm : Dword := if ul then imm16 ++ 0#16 else imm16.zeroExtend 32
    ∀ (i : Instr) (m : Modifier) (b : Dword),
      (i, m, b) ∈ [
        (.div p dst rs1 rs2, .replace, s.reg rs2), (.divi p dst rs1 ul imm16, .replace, imm),
        (.adiv p dst rs1 rs2, .accumulate, s.reg rs2), (.adivi p dst rs1 ul imm16, .accumulate, imm)] →
      b ≠ 0 →
      let dividend := s.divmsi.toNat * 2 ^ 32 + (s.reg rs1).toNat
      ∃ t r, exec i s = .next t ∧ (t.divmso.toNat * 2 ^ 32 + r.toNat) * b.toNat ≤ dividend ∧
        dividend < (t.divmso.toNat * 2 ^ 32 + r.toNat + 1) * b.toNat ∧
        PutsResult m dst r s t ∧ Sequential { regs := [dst], acarry := true, divmso := true } s t

/-- The four forms of `divs` and the four of `divf` by a divisor that is not 0 (42_arith_muldiv.md R235, R236, R252
to R255, R260 to R263): the quotient of the signed numbers, the dividend times 2^16 for `divf`, rounded toward zero,
modulo 2^32 (D13; sign-extended immediate D9, accumulation D15). -/
def Obligations.SignedDivides : Prop :=
  ∀ (p : Pred) (dst rs1 rs2 : Reg) (ul : Bool) (imm16 : BitVec 16) (s : State), s.pred p = true →
    let imm : Dword := if ul then imm16 ++ 0#16 else imm16.signExtend 32
    ∀ (i : Instr) (m : Modifier) (b : Dword) (scale : Int),
      (i, m, b, scale) ∈ [
        (.divs p dst rs1 rs2, .replace, s.reg rs2, 1), (.divsi p dst rs1 ul imm16, .replace, imm, 1),
        (.adivs p dst rs1 rs2, .accumulate, s.reg rs2, 1), (.adivsi p dst rs1 ul imm16, .accumulate, imm, 1),
        (.divf p dst rs1 rs2, .replace, s.reg rs2, 2 ^ 16), (.divfi p dst rs1 ul imm16, .replace, imm, 2 ^ 16),
        (.adivf p dst rs1 rs2, .accumulate, s.reg rs2, 2 ^ 16),
        (.adivfi p dst rs1 ul imm16, .accumulate, imm, 2 ^ 16)] →
      b ≠ 0 →
      ∃ t, exec i s = .next t ∧
        PutsResult m dst (BitVec.ofInt 32 (((s.reg rs1).toInt * scale).tdiv b.toInt)) s t ∧
        Sequential { regs := [dst], acarry := true } s t

/-- The twelve divides by 0 (42_arith_muldiv.md R237; D12): they complete, and the result, for the unsigned ones
with `divmso`, is the open function `DIV0` of the opcode and the operand values; everything else happens as usual. -/
def Obligations.DividesByZero : Prop :=
  ∀ (p : Pred) (dst rs1 rs2 : Reg) (ul : Bool) (imm16 : BitVec 16) (s : State), s.pred p = true →
    (s.reg rs2 = 0 → ∀ (i : Instr) (m : Modifier) (op : Opcode),
      ((i, m, op) ∈ [(.div p dst rs1 rs2, .replace, 0x22), (.adiv p dst rs1 rs2, .accumulate, 0x62)] →
        ∃ t, exec i s = .next t ∧ PutsResult m dst (Config.div0Wide op (s.reg rs1) s.divmsi).1 s t ∧
          t.divmso = (Config.div0Wide op (s.reg rs1) s.divmsi).2 ∧
          Sequential { regs := [dst], acarry := true, divmso := true } s t) ∧
      ((i, m, op) ∈ [(.divs p dst rs1 rs2, .replace, 0x23), (.adivs p dst rs1 rs2, .accumulate, 0x63),
          (.divf p dst rs1 rs2, .replace, 0x29), (.adivf p dst rs1 rs2, .accumulate, 0x69)] →
        ∃ t, exec i s = .next t ∧ PutsResult m dst (Config.div0 op (s.reg rs1)) s t ∧
          Sequential { regs := [dst], acarry := true } s t)) ∧
    (imm16 = 0 → ∀ (i : Instr) (m : Modifier) (op : Opcode),
      ((i, m, op) ∈ [(.divi p dst rs1 ul imm16, .replace, 0x32), (.adivi p dst rs1 ul imm16, .accumulate, 0x72)] →
        ∃ t, exec i s = .next t ∧ PutsResult m dst (Config.div0Wide op (s.reg rs1) s.divmsi).1 s t ∧
          t.divmso = (Config.div0Wide op (s.reg rs1) s.divmsi).2 ∧
          Sequential { regs := [dst], acarry := true, divmso := true } s t) ∧
      ((i, m, op) ∈ [(.divsi p dst rs1 ul imm16, .replace, 0x33), (.adivsi p dst rs1 ul imm16, .accumulate, 0x73),
          (.divfi p dst rs1 ul imm16, .replace, 0x39), (.adivfi p dst rs1 ul imm16, .accumulate, 0x79)] →
        ∃ t, exec i s = .next t ∧ PutsResult m dst (Config.div0 op (s.reg rs1)) s t ∧
          Sequential { regs := [dst], acarry := true } s t))

/-! ### Predicates and comparisons -/

/-- The ten predicate instructions (43_predicate.md R270 to R281): `dstp` becomes the condition, always; a write to
`p0` is discarded (D34); the orderings are those of `CMP_SIGNED`, whichever value it has (D5), and the negated forms
their complements. -/
def Obligations.PredicateInstructions : Prop :=
  ∀ (p dstp : Pred) (rs1 rs2 : Reg) (s : State), s.pred p = true →
    let val : Dword → Int := fun v => if Config.cmpSigned then v.toInt else v.toNat
    let a := s.reg rs1
    let b := s.reg rs2
    ∀ (i : Instr) (c : Prop),
      (i, c) ∈ [
        (.spc p dstp, s.carry = true), (.spnc p dstp, s.carry = false),
        (.spe p dstp rs1 rs2, a = b), (.spne p dstp rs1 rs2, a ≠ b),
        (.spl p dstp rs1 rs2, val a < val b), (.spnl p dstp rs1 rs2, val b ≤ val a),
        (.spg p dstp rs1 rs2, val b < val a), (.spng p dstp rs1 rs2, val a ≤ val b),
        (.spt p dstp, True), (.spf p dstp, False)] →
      ∃ t, exec i s = .next t ∧ (t.pred dstp = true ↔ dstp = 0 ∨ c) ∧ Sequential { preds := [dstp] } s t

/-- The fourteen comparison instructions (47_compare.md R350 to R365): all of `dst` becomes 1 where the condition
holds and 0 where it does not; the immediate of an ordering is sign-extended exactly when `CMP_SIGNED` (D5). -/
def Obligations.ComparisonInstructions : Prop :=
  ∀ (p : Pred) (dst rs1 rs2 : Reg) (ul : Bool) (imm16 : BitVec 16) (s : State), s.pred p = true →
    let val : Dword → Int := fun v => if Config.cmpSigned then v.toInt else v.toNat
    let imm : Dword := if ul then imm16 ++ 0#16 else imm16.zeroExtend 32
    let ord : Dword := if ul = false ∧ Config.cmpSigned = true then imm16.signExtend 32 else imm
    let a := s.reg rs1
    let b := s.reg rs2
    ∀ (i : Instr) (c : Prop),
      (i, c) ∈ [
        (.se p dst rs1 rs2, a = b), (.sne p dst rs1 rs2, a ≠ b),
        (.sei p dst rs1 ul imm16, a = imm), (.snei p dst rs1 ul imm16, a ≠ imm),
        (.slt p dst rs1 rs2, val a < val b), (.snlt p dst rs1 rs2, val b ≤ val a),
        (.slti p dst rs1 ul imm16, val a < val ord), (.snlti p dst rs1 ul imm16, val ord ≤ val a),
        (.sgt p dst rs1 rs2, val b < val a), (.sngt p dst rs1 rs2, val a ≤ val b),
        (.sgti p dst rs1 ul imm16, val ord < val a), (.sngti p dst rs1 ul imm16, val a ≤ val ord),
        (.set p dst, True), (.clr p dst, False)] →
      ∃ t, exec i s = .next t ∧ (c → Received t dst 1) ∧ (¬ c → Received t dst 0) ∧
        Sequential { regs := [dst] } s t

/-- `set` and `clr` (47_compare.md R364, R365): their opcodes and fields (the blank bits of format R 0, `rs1` and
`rs2` ignored), and the 1 or 0 in `dst`; a write to `r0` is discarded, and nothing else but `pc` and the instruction
count changes. -/
def Obligations.SetAndClear : Prop :=
  (∀ w : InstrWord, w &&& usedR = w → w.extractLsb' 0 8 = 0xF4#8 →
    decode w = .instr (.set (w.extractLsb' 8 3).toFin (w.extractLsb' 11 6).toFin)) ∧
  (∀ w : InstrWord, w &&& usedR = w → w.extractLsb' 0 8 = 0xF5#8 →
    decode w = .instr (.clr (w.extractLsb' 8 3).toFin (w.extractLsb' 11 6).toFin)) ∧
  ∀ (p : Pred) (dst : Reg) (s : State), s.pred p = true →
    (∃ t, exec (.set p dst) s = .next t ∧ Received t dst 1 ∧ t.pc = nextPc s.pc ∧
      Frame { regs := [dst] } s t) ∧
    ∃ t, exec (.clr p dst) s = .next t ∧ Received t dst 0 ∧ t.pc = nextPc s.pc ∧ Frame { regs := [dst] } s t

/-! ### Memory instructions -/

/-- The six loads without post-modification from main memory (44_memory_instr.md R290, R291, R295 to R297, R303 to
R305): the dword at the effective address with bit 0 dropped, or the word there zero- or sign-extended, read before
anything is written (D3, D15). DeviceReads says the same of a device, EveryInstructionCompletes what happens where
nothing answers. -/
def Obligations.LoadInstructions : Prop :=
  ∀ (p : Pred) (dst rs1 : Reg) (imm17 : BitVec 17) (s : State), s.pred p = true →
    let ea : Addr := s.reg rs1 + imm17.signExtend 32
    let low : Addr := BitVec.ofNat 32 (2 * (ea.toNat / 2))
    let dword : Dword := readWord s.mem (low + 1) ++ readWord s.mem low
    ∀ (i : Instr) (m : Modifier) (v : Dword) (words : List Addr),
      (i, m, v, words) ∈ [
        (.ld p dst rs1 imm17, .replace, dword, [low, low + 1]),
        (.ald p dst rs1 imm17, .accumulate, dword, [low, low + 1]),
        (.ldu p dst rs1 imm17, .replace, (readWord s.mem ea).zeroExtend 32, [ea]),
        (.aldu p dst rs1 imm17, .accumulate, (readWord s.mem ea).zeroExtend 32, [ea]),
        (.lds p dst rs1 imm17, .replace, (readWord s.mem ea).signExtend 32, [ea]),
        (.alds p dst rs1 imm17, .accumulate, (readWord s.mem ea).signExtend 32, [ea])] →
      (∀ a ∈ words, s.memoryAt a = .ram) →
      ∃ t, exec i s = .next t ∧ PutsResult m dst v s t ∧ Sequential { regs := [dst], acarry := true } s t

/-- `pop` and `apop` of a dword in main memory (44_memory_instr.md R292, R298, R306; D17): the dword at the old base
plus the offset, and the old base plus one word in `rs1`. With `dst = rs1` other than `r0`, where the spec specifies
neither value of the register, the instruction completes and only that register's value is free (the model's choice,
log 7). -/
def Obligations.PopInstructions : Prop :=
  ∀ (p : Pred) (dst rs1 : Reg) (imm17 : BitVec 17) (s : State), s.pred p = true →
    let ea : Addr := s.reg rs1 + imm17.signExtend 32
    let low : Addr := BitVec.ofNat 32 (2 * (ea.toNat / 2))
    let dword : Dword := readWord s.mem (low + 1) ++ readWord s.mem low
    s.memoryAt low = .ram → s.memoryAt (low + 1) = .ram → ∀ (i : Instr) (m : Modifier),
      (i, m) ∈ [(.pop p dst rs1 imm17, .replace), (.apop p dst rs1 imm17, .accumulate)] →
      ∃ t, exec i s = .next t ∧ Sequential { regs := [dst, rs1], acarry := true } s t ∧
        (m = .replace → t.acarry = s.acarry) ∧
        (m = .accumulate → t.acarry = decide (2 ^ 32 ≤ (s.reg dst).toNat + dword.toNat)) ∧
        (dst ≠ rs1 ∨ dst = 0 → PutsResult m dst dword s t ∧ Received t rs1 (s.reg rs1 + 1))

/-- `str`, `stu`, `sts` to main memory (44_memory_instr.md R290, R299 to R301; D3, D16): the words stored stand in
memory at the effective address, and every byte outside them is unchanged. DeviceWrites says what a store to a device
does. -/
def Obligations.StoreInstructions : Prop :=
  ∀ (p : Pred) (dst rs1 : Reg) (imm17 : BitVec 17) (s : State), s.pred p = true → s.mem.wf →
    let ea := effectiveAddr (s.reg rs1) imm17
    let low : Addr := BitVec.ofNat 32 (2 * (ea.toNat / 2))
    let d := s.reg dst
    (s.memoryAt low = .ram → s.memoryAt (low + 1) = .ram →
      ∃ t, exec (.str p dst rs1 imm17) s = .next t ∧ Sequential { words := dwordAddrs ea } s t ∧
        readWord t.mem low = d.extractLsb' 0 16 ∧ readWord t.mem (low + 1) = d.extractLsb' 16 16) ∧
    (s.memoryAt ea = .ram →
      (∃ t, exec (.stu p dst rs1 imm17) s = .next t ∧ Sequential { words := [ea] } s t ∧
        readWord t.mem ea = d.extractLsb' 0 16) ∧
      ∃ t, exec (.sts p dst rs1 imm17) s = .next t ∧ Sequential { words := [ea] } s t ∧
        readWord t.mem ea = d.extractLsb' 31 1 ++ d.extractLsb' 0 15)

/-- `push` to main memory (44_memory_instr.md R292, R302; D3, D17): the old value of `dst`, also when `dst = rs1`, is
stored at the old base plus the offset, and the base register holds one word less; `r0` as a base stays 0. -/
def Obligations.PushInstruction : Prop :=
  ∀ (p : Pred) (dst rs1 : Reg) (imm17 : BitVec 17) (s : State), s.pred p = true → s.mem.wf →
    let ea := effectiveAddr (s.reg rs1) imm17
    let low : Addr := BitVec.ofNat 32 (2 * (ea.toNat / 2))
    s.memoryAt low = .ram → s.memoryAt (low + 1) = .ram →
    ∃ t, exec (.push p dst rs1 imm17) s = .next t ∧
      Sequential { regs := [rs1], words := dwordAddrs ea } s t ∧ Received t rs1 (s.reg rs1 - 1) ∧
      readWord t.mem low = (s.reg dst).extractLsb' 0 16 ∧ readWord t.mem (low + 1) = (s.reg dst).extractLsb' 16 16

/-- Pushes to main memory through one base overlap (44_memory_instr.md R292; D17): after a `push` through an even base
other than the stored registers, a second and a third `push` with the same offset 0 store to the same dword, the two
words below the first one's. -/
def Obligations.PushesOverlap : Prop :=
  ∀ (p : Pred) (r base : Reg) (s t u v : State), s.pred p = true → s.mem.wf → base ≠ 0 → r ≠ base →
    (s.reg base).getLsbD 0 = false →
    (∀ a ∈ [s.reg base - 2, s.reg base - 1, s.reg base, s.reg base + 1], s.memoryAt a = .ram) →
    exec (.push p r base 0) s = .next t →
    exec (.push p r base 0) t = .next u → exec (.push p r base 0) u = .next v →
    u.reg base = s.reg base - 2 ∧
      readDword u.mem (s.reg base) = s.reg r ∧ readDword u.mem (s.reg base - 2) = s.reg r ∧
      ∀ a : Addr, readWord v.mem a = readWord u.mem a

/-! ### Devices -/

/-- The reads that reach a device, for every device (00_scope.md R9, 10_state.md R57, 20_memory.md R93): a load, `pop`
or `apop` where `MEMORY_MAP` puts one, an `srr` of a register that `EXTRA_SR` gives to one. The instruction completes
with what the devices return, and they have seen this access and no other; a dword whose two words do not answer alike is
read word by word, the even address first (R85, R92). How a device is told of an access and answers it, and the free
register of a `pop` into its base, is the model's choice (log 7, 15, 16, 48). -/
def Obligations.DeviceReads : Prop :=
  ∀ (p : Pred) (dst rs1 : Reg) (imm17 : BitVec 17) (a : SrAddr) (d : DeviceId) (s : State), s.pred p = true →
    let ea := effectiveAddr (s.reg rs1) imm17
    let low : Addr := BitVec.ofNat 32 (2 * (ea.toNat / 2))
    let seen : DeviceAccess → List DeviceEvent := fun x => ⟨d, s.draws, x⟩ :: s.deviceLog
    let word : Word := (Config.deviceAnswer (seen (.readWord ea))).extractLsb' 0 16
    let wordAt : Addr → List DeviceEvent → Word × List DeviceEvent := fun b log =>
      match s.memoryAt b with
      | .device e =>
        ((Config.deviceAnswer (⟨e, s.draws, .readWord b⟩ :: log)).extractLsb' 0 16, ⟨e, s.draws, .readWord b⟩ :: log)
      | .ram => (readWord s.mem b, log)
      | .absent => (0, log)
    let even := wordAt low s.deviceLog
    let odd := wordAt (low + 1) even.2
    (s.memoryAt ea = .device d → ∀ (i : Instr) (m : Modifier) (v : Dword),
      (i, m, v) ∈ [
        (.ldu p dst rs1 imm17, .replace, word.zeroExtend 32),
        (.aldu p dst rs1 imm17, .accumulate, word.zeroExtend 32),
        (.lds p dst rs1 imm17, .replace, word.signExtend 32),
        (.alds p dst rs1 imm17, .accumulate, word.signExtend 32)] →
      ∃ t, exec i s = .next t ∧ PutsResult m dst v s t ∧ t.deviceLog = seen (.readWord ea) ∧
        Sequential { regs := [dst], acarry := true, devices := true } s t) ∧
    (∀ (v : Dword) (log : List DeviceEvent),
      (s.memoryAt low = .device d ∧ s.memoryAt (low + 1) = .device d ∧
          v = Config.deviceAnswer (seen (.readDword low)) ∧ log = seen (.readDword low)) ∨
        (s.memoryAt low ≠ s.memoryAt (low + 1) ∧ s.memoryAt low ≠ .absent ∧ s.memoryAt (low + 1) ≠ .absent ∧
          v = odd.1 ++ even.1 ∧ log = odd.2) →
      (∀ (i : Instr) (m : Modifier),
        (i, m) ∈ [(.ld p dst rs1 imm17, .replace), (.ald p dst rs1 imm17, .accumulate)] →
        ∃ t, exec i s = .next t ∧ PutsResult m dst v s t ∧ t.deviceLog = log ∧
          Sequential { regs := [dst], acarry := true, devices := true } s t) ∧
      ∀ (i : Instr) (m : Modifier),
        (i, m) ∈ [(.pop p dst rs1 imm17, .replace), (.apop p dst rs1 imm17, .accumulate)] →
        ∃ t, exec i s = .next t ∧ t.deviceLog = log ∧
          Sequential { regs := [dst, rs1], acarry := true, devices := true } s t ∧
          (m = .replace → t.acarry = s.acarry) ∧
          (m = .accumulate → t.acarry = decide (2 ^ 32 ≤ (s.reg dst).toNat + v.toNat)) ∧
          (dst ≠ rs1 ∨ dst = 0 → PutsResult m dst v s t ∧ Received t rs1 (s.reg rs1 + 1))) ∧
    (12 ≤ a.toNat → s.extraSr.lookup a = some d →
      ∃ t, exec (.srr p dst a) s = .next t ∧ Received t dst (Config.deviceAnswer (seen (.readSr a))) ∧
        t.deviceLog = seen (.readSr a) ∧ Sequential { regs := [dst], devices := true } s t)

/-- The writes that reach a device, for every device (00_scope.md R9, 10_state.md R58, 20_memory.md R93): a store or
`push` where `MEMORY_MAP` puts one, an `srw` of a register that `EXTRA_SR` gives to one. The instruction completes, the
devices have seen this access and no other, and memory is unchanged but for a word of it that is main memory; a dword
whose two words do not answer alike is written word by word, the even address first (R87, R92). How a device is told of
an access is the model's choice (log 15, 16, 48). -/
def Obligations.DeviceWrites : Prop :=
  ∀ (p : Pred) (dst rs1 : Reg) (imm17 : BitVec 17) (a : SrAddr) (d : DeviceId) (s : State), s.pred p = true →
    let ea := effectiveAddr (s.reg rs1) imm17
    let low : Addr := BitVec.ofNat 32 (2 * (ea.toNat / 2))
    let v := s.reg dst
    let seen : DeviceAccess → List DeviceEvent := fun x => ⟨d, s.draws, x⟩ :: s.deviceLog
    let told : Addr → Word → List DeviceEvent → List DeviceEvent := fun b w log =>
      match s.memoryAt b with
      | .device e => ⟨e, s.draws, .writeWord b w⟩ :: log
      | .ram => log
      | .absent => log
    let stored : State → Prop := fun t =>
      (s.memoryAt low = .ram → readWord t.mem low = v.extractLsb' 0 16) ∧
        (s.memoryAt (low + 1) = .ram → readWord t.mem (low + 1) = v.extractLsb' 16 16)
    let words := [low, low + 1].filter fun b => decide (s.memoryAt b = .ram)
    (s.memoryAt ea = .device d → ∀ (i : Instr) (w : Word),
      (i, w) ∈ [
        (.stu p dst rs1 imm17, v.extractLsb' 0 16),
        (.sts p dst rs1 imm17, v.extractLsb' 31 1 ++ v.extractLsb' 0 15)] →
      ∃ t, exec i s = .next t ∧ t.deviceLog = seen (.writeWord ea w) ∧ Sequential { devices := true } s t) ∧
    (s.mem.wf → ∀ log : List DeviceEvent,
      (s.memoryAt low = .device d ∧ s.memoryAt (low + 1) = .device d ∧ log = seen (.writeDword low v)) ∨
        (s.memoryAt low ≠ s.memoryAt (low + 1) ∧ s.memoryAt low ≠ .absent ∧ s.memoryAt (low + 1) ≠ .absent ∧
          log = told (low + 1) (v.extractLsb' 16 16) (told low (v.extractLsb' 0 16) s.deviceLog)) →
      (∃ t, exec (.str p dst rs1 imm17) s = .next t ∧ t.deviceLog = log ∧ stored t ∧
        Sequential { words := words, devices := true } s t) ∧
      ∃ t, exec (.push p dst rs1 imm17) s = .next t ∧ t.deviceLog = log ∧ stored t ∧
        Received t rs1 (s.reg rs1 - 1) ∧ Sequential { regs := [rs1], words := words, devices := true } s t) ∧
    (12 ≤ a.toNat → s.extraSr.lookup a = some d →
      ∃ t, exec (.srw p dst a) s = .next t ∧ t.deviceLog = seen (.writeSr a v) ∧
        Sequential { devices := true } s t)

/-! ### Branches and jumps -/

/-- The nine branches (45_branch.md R320 to R329): where the condition holds `r1` takes the address after the branch
and `pc` the target, the address after the branch plus twice the offset with bit 0 cleared; where it does not, `pc`
advances and nothing else changes (D2, D4, D5, D18). The operands are read before `r1` is written. -/
def Obligations.BranchInstructions : Prop :=
  ∀ (p : Pred) (rs1 rs2 : Reg) (imm17 : BitVec 17) (s : State), s.pred p = true →
    let val : Dword → Int := fun v => if Config.cmpSigned then v.toInt else v.toNat
    let a := s.reg rs1
    let b := s.reg rs2
    ∀ (i : Instr) (c : Prop),
      (i, c) ∈ [
        (.brc p imm17, s.carry = true), (.brnc p imm17, s.carry = false),
        (.bre p rs1 rs2 imm17, a = b), (.brne p rs1 rs2 imm17, a ≠ b),
        (.brl p rs1 rs2 imm17, val a < val b), (.brnl p rs1 rs2 imm17, val b ≤ val a),
        (.brg p rs1 rs2 imm17, val b < val a), (.brng p rs1 rs2 imm17, val a ≤ val b),
        (.br p imm17, True)] →
      ∃ t, exec i s = .next t ∧ Frame { regs := [1] } s t ∧ t.instrs = s.instrs + 1 ∧
        (c → t.reg 1 = s.pc + 4 ∧
          t.pc = BitVec.ofInt 32 (2 * (((s.pc.toNat : Int) + 4 + 2 * imm17.toInt) / 2))) ∧
        (¬ c → t.reg 1 = s.reg 1 ∧ t.pc = s.pc + 4)

/-- `jmp` and `jr` (46_jump.md R340 to R342): `pc` takes the base register's old value plus twice the offset, for
`jr` plus the address after the jump, with bit 0 cleared; `r1` takes the address after the jump, also when it was
the base (D2, D4, D38). -/
def Obligations.JumpInstructions : Prop :=
  ∀ (p : Pred) (rs1 : Reg) (imm17 : BitVec 17) (s : State), s.pred p = true →
    ∀ (i : Instr) (base : Int),
      (i, base) ∈ [(.jmp p rs1 imm17, 0), (.jr p rs1 imm17, (s.pc.toNat : Int) + 4)] →
      ∃ t, exec i s = .next t ∧ Frame { regs := [1] } s t ∧ t.instrs = s.instrs + 1 ∧ t.reg 1 = s.pc + 4 ∧
        t.pc = BitVec.ofInt 32 (2 * (((s.reg rs1).toNat + 2 * imm17.toInt + base) / 2))

/-- `iret` (46_jump.md R343; D35): `pc` takes `pc'` with bit 0 cleared, `ien` becomes 1, `pc'` and `r1` keep their
values. -/
def Obligations.InterruptReturn : Prop :=
  ∀ (p : Pred) (s : State), s.pred p = true →
    ∃ t, exec (.iret p) s = .next t ∧ Frame { ien := true } s t ∧ t.instrs = s.instrs + 1 ∧ t.ien = true ∧
      t.pc = BitVec.ofNat 32 (2 * (s.pcSave.toNat / 2))

/-! ### System -/

/-- `nop` (48_misc_system.md R370): only `pc` changes, and the instruction counts. -/
def Obligations.NoOperation : Prop :=
  ∀ (p : Pred) (s : State), s.pred p = true →
    ∃ t, exec (.nop p) s = .next t ∧ Sequential { } s t ∧ t.mem = s.mem

/-- `srr` (48_misc_system.md R371, 10_state.md R45 to R57): the twelve registers by address, the single-bit ones as
0 or 1, and 0 from every other address that `EXTRA_SR` does not define (D37; DeviceReads says what one it defines
reads). `instrs` is read before this instruction counts (D20). -/
def Obligations.StatusRegisterRead : Prop :=
  ∀ (p : Pred) (dst : Reg) (a : SrAddr) (s : State), s.pred p = true →
    (a.toNat < 12 ∨ s.extraSr.lookup a = none) →
    ∃ t v, exec (.srr p dst a) s = .next t ∧ Received t dst v ∧ Sequential { regs := [dst] } s t ∧
      (∀ (n : Nat) (x : Dword),
        (n, x) ∈ [(0, 0x0069DD80), (1, 0x00010000), (2, Config.vendorId), (3, if s.ien then 1 else 0), (4, s.cycles),
          (5, s.instrs), (6, s.mulms), (7, s.divmsi), (8, s.divmso), (9, if s.carry then 1 else 0),
          (10, if s.acarry then 1 else 0), (11, s.pcSave)] →
        a.toNat = n → v = x) ∧
      (12 ≤ a.toNat → v = 0)

/-- `srw` (48_misc_system.md R372, 10_state.md R58; D21, D37): the register addressed takes the value, a single-bit
one its bit 0; the read-only registers and the addresses without a register are unchanged (DeviceWrites says what a
register that `EXTRA_SR` defines does); the instruction then counts (D20). -/
def Obligations.StatusRegisterWrite : Prop :=
  ∀ (p : Pred) (src : Reg) (a : SrAddr) (s : State), s.pred p = true →
    (a.toNat < 12 ∨ s.extraSr.lookup a = none) →
    ∃ t, exec (.srw p src a) s = .next t ∧ t.pc = s.pc + 4 ∧
      t.ien = (if a = 3 then (s.reg src).getLsbD 0 else s.ien) ∧
      t.cycles = (if a = 4 then s.reg src else s.cycles) ∧
      t.instrs = (if a = 5 then s.reg src else s.instrs) + 1 ∧
      t.mulms = (if a = 6 then s.reg src else s.mulms) ∧
      t.divmsi = (if a = 7 then s.reg src else s.divmsi) ∧
      t.divmso = (if a = 8 then s.reg src else s.divmso) ∧
      t.carry = (if a = 9 then (s.reg src).getLsbD 0 else s.carry) ∧
      t.acarry = (if a = 10 then (s.reg src).getLsbD 0 else s.acarry) ∧
      t.pcSave = (if a = 11 then s.reg src else s.pcSave) ∧
      (∀ r, t.reg r = s.reg r) ∧ (∀ q, t.pred q = s.pred q) ∧ t.mem = s.mem ∧ t.irqs = s.irqs ∧
      t.deviceLog = s.deviceLog ∧ t.memoryMap = s.memoryMap ∧ t.extraSr = s.extraSr ∧ t.draws = s.draws

/-- The read-only `arev` and `vendor` (10_state.md R46, R47): in every state `srr` reads their constants, and an
`srw` to them changes nothing but `pc` and the instruction count. -/
def Obligations.ReadOnlyRegisters : Prop :=
  ∀ (p : Pred) (r : Reg) (s : State), s.pred p = true →
    ∀ (a : SrAddr) (v : Dword), (a, v) ∈ [(1, 0x00010000), (2, Config.vendorId)] →
      (∃ t, exec (.srr p r a) s = .next t ∧ Received t r v ∧ Frame { regs := [r] } s t) ∧
      ∃ t, exec (.srw p r a) s = .next t ∧ Frame { } s t ∧ readSr t a = v

/-- `trap` (48_misc_system.md R373, 60_exceptions.md R402): `pc'` takes the address after the `trap`, control goes
to 8 times the low 8 bits of the immediate, `ien` becomes 0, whatever it was, and nothing else changes (D2, D23). -/
def Obligations.TrapInstruction : Prop :=
  ∀ (p : Pred) (imm16 : BitVec 16) (s : State), s.pred p = true →
    ∃ t, exec (.trap p imm16) s = .next t ∧ Frame { ien := true, pcSave := true } s t ∧ t.mem = s.mem ∧
      t.instrs = s.instrs + 1 ∧ t.pcSave = s.pc + 4 ∧ t.ien = false ∧ t.pc.toNat = 8 * (imm16.toNat % 256)

/-- A `trap` and then an `iret` come back to the instruction after the `trap`, with interrupts enabled and every
register, predicate, flag and byte of memory as it was (60_exceptions.md R402, R409; D2). -/
def Obligations.TrapThenReturn : Prop :=
  ∀ (p q : Pred) (imm16 : BitVec 16) (s t u : State), s.pred p = true → s.pred q = true →
    s.pc.getLsbD 0 = false → exec (.trap p imm16) s = .next t → exec (.iret q) t = .next u →
    u.pc = s.pc + 4 ∧ u.ien = true ∧ u.instrs = s.instrs + 2 ∧ Frame { ien := true, pcSave := true } s u
end

