-- ==== Sys2Proof/Laws/State.lean ====
section
/-! SUPPORT. One lemma per field per named update of the state, and per accessor, so that no proof unfolds an update. -/

namespace Sys2Proof.Machine

/-! ### `State.setPc` -/

@[simp] theorem State.setPc_regs (s : State) (a : Addr) : (s.setPc a).regs = s.regs := rfl
@[simp] theorem State.setPc_preds (s : State) (a : Addr) : (s.setPc a).preds = s.preds := rfl
@[simp] theorem State.setPc_pc (s : State) (a : Addr) : (s.setPc a).pc = a := rfl
@[simp] theorem State.setPc_ien (s : State) (a : Addr) : (s.setPc a).ien = s.ien := rfl
@[simp] theorem State.setPc_cycles (s : State) (a : Addr) : (s.setPc a).cycles = s.cycles := rfl
@[simp] theorem State.setPc_instrs (s : State) (a : Addr) : (s.setPc a).instrs = s.instrs := rfl
@[simp] theorem State.setPc_mulms (s : State) (a : Addr) : (s.setPc a).mulms = s.mulms := rfl
@[simp] theorem State.setPc_divmsi (s : State) (a : Addr) : (s.setPc a).divmsi = s.divmsi := rfl
@[simp] theorem State.setPc_divmso (s : State) (a : Addr) : (s.setPc a).divmso = s.divmso := rfl
@[simp] theorem State.setPc_carry (s : State) (a : Addr) : (s.setPc a).carry = s.carry := rfl
@[simp] theorem State.setPc_acarry (s : State) (a : Addr) : (s.setPc a).acarry = s.acarry := rfl
@[simp] theorem State.setPc_pcSave (s : State) (a : Addr) : (s.setPc a).pcSave = s.pcSave := rfl
@[simp] theorem State.setPc_mem (s : State) (a : Addr) : (s.setPc a).mem = s.mem := rfl
@[simp] theorem State.setPc_irqs (s : State) (a : Addr) : (s.setPc a).irqs = s.irqs := rfl
@[simp] theorem State.setPc_memoryMap (s : State) (a : Addr) : (s.setPc a).memoryMap = s.memoryMap := rfl
@[simp] theorem State.setPc_extraSr (s : State) (a : Addr) : (s.setPc a).extraSr = s.extraSr := rfl
@[simp] theorem State.setPc_deviceLog (s : State) (a : Addr) : (s.setPc a).deviceLog = s.deviceLog := rfl
@[simp] theorem State.setPc_draws (s : State) (a : Addr) : (s.setPc a).draws = s.draws := rfl
@[simp] theorem State.setPc_reg (s : State) (a : Addr) (k : Reg) : (s.setPc a).reg k = s.reg k := rfl
@[simp] theorem State.setPc_pred (s : State) (a : Addr) (k : Pred) : (s.setPc a).pred k = s.pred k := rfl

/-! ### `State.setCarry` -/

@[simp] theorem State.setCarry_regs (s : State) (c : Bool) : (s.setCarry c).regs = s.regs := rfl
@[simp] theorem State.setCarry_preds (s : State) (c : Bool) : (s.setCarry c).preds = s.preds := rfl
@[simp] theorem State.setCarry_pc (s : State) (c : Bool) : (s.setCarry c).pc = s.pc := rfl
@[simp] theorem State.setCarry_ien (s : State) (c : Bool) : (s.setCarry c).ien = s.ien := rfl
@[simp] theorem State.setCarry_cycles (s : State) (c : Bool) : (s.setCarry c).cycles = s.cycles := rfl
@[simp] theorem State.setCarry_instrs (s : State) (c : Bool) : (s.setCarry c).instrs = s.instrs := rfl
@[simp] theorem State.setCarry_mulms (s : State) (c : Bool) : (s.setCarry c).mulms = s.mulms := rfl
@[simp] theorem State.setCarry_divmsi (s : State) (c : Bool) : (s.setCarry c).divmsi = s.divmsi := rfl
@[simp] theorem State.setCarry_divmso (s : State) (c : Bool) : (s.setCarry c).divmso = s.divmso := rfl
@[simp] theorem State.setCarry_carry (s : State) (c : Bool) : (s.setCarry c).carry = c := rfl
@[simp] theorem State.setCarry_acarry (s : State) (c : Bool) : (s.setCarry c).acarry = s.acarry := rfl
@[simp] theorem State.setCarry_pcSave (s : State) (c : Bool) : (s.setCarry c).pcSave = s.pcSave := rfl
@[simp] theorem State.setCarry_mem (s : State) (c : Bool) : (s.setCarry c).mem = s.mem := rfl
@[simp] theorem State.setCarry_irqs (s : State) (c : Bool) : (s.setCarry c).irqs = s.irqs := rfl
@[simp] theorem State.setCarry_memoryMap (s : State) (c : Bool) : (s.setCarry c).memoryMap = s.memoryMap := rfl
@[simp] theorem State.setCarry_extraSr (s : State) (c : Bool) : (s.setCarry c).extraSr = s.extraSr := rfl
@[simp] theorem State.setCarry_deviceLog (s : State) (c : Bool) : (s.setCarry c).deviceLog = s.deviceLog := rfl
@[simp] theorem State.setCarry_draws (s : State) (c : Bool) : (s.setCarry c).draws = s.draws := rfl
@[simp] theorem State.setCarry_reg (s : State) (c : Bool) (k : Reg) : (s.setCarry c).reg k = s.reg k := rfl
@[simp] theorem State.setCarry_pred (s : State) (c : Bool) (k : Pred) : (s.setCarry c).pred k = s.pred k := rfl

/-! ### `State.setAcarry` -/

@[simp] theorem State.setAcarry_regs (s : State) (c : Bool) : (s.setAcarry c).regs = s.regs := rfl
@[simp] theorem State.setAcarry_preds (s : State) (c : Bool) : (s.setAcarry c).preds = s.preds := rfl
@[simp] theorem State.setAcarry_pc (s : State) (c : Bool) : (s.setAcarry c).pc = s.pc := rfl
@[simp] theorem State.setAcarry_ien (s : State) (c : Bool) : (s.setAcarry c).ien = s.ien := rfl
@[simp] theorem State.setAcarry_cycles (s : State) (c : Bool) : (s.setAcarry c).cycles = s.cycles := rfl
@[simp] theorem State.setAcarry_instrs (s : State) (c : Bool) : (s.setAcarry c).instrs = s.instrs := rfl
@[simp] theorem State.setAcarry_mulms (s : State) (c : Bool) : (s.setAcarry c).mulms = s.mulms := rfl
@[simp] theorem State.setAcarry_divmsi (s : State) (c : Bool) : (s.setAcarry c).divmsi = s.divmsi := rfl
@[simp] theorem State.setAcarry_divmso (s : State) (c : Bool) : (s.setAcarry c).divmso = s.divmso := rfl
@[simp] theorem State.setAcarry_carry (s : State) (c : Bool) : (s.setAcarry c).carry = s.carry := rfl
@[simp] theorem State.setAcarry_acarry (s : State) (c : Bool) : (s.setAcarry c).acarry = c := rfl
@[simp] theorem State.setAcarry_pcSave (s : State) (c : Bool) : (s.setAcarry c).pcSave = s.pcSave := rfl
@[simp] theorem State.setAcarry_mem (s : State) (c : Bool) : (s.setAcarry c).mem = s.mem := rfl
@[simp] theorem State.setAcarry_irqs (s : State) (c : Bool) : (s.setAcarry c).irqs = s.irqs := rfl
@[simp] theorem State.setAcarry_memoryMap (s : State) (c : Bool) : (s.setAcarry c).memoryMap = s.memoryMap := rfl
@[simp] theorem State.setAcarry_extraSr (s : State) (c : Bool) : (s.setAcarry c).extraSr = s.extraSr := rfl
@[simp] theorem State.setAcarry_deviceLog (s : State) (c : Bool) : (s.setAcarry c).deviceLog = s.deviceLog := rfl
@[simp] theorem State.setAcarry_draws (s : State) (c : Bool) : (s.setAcarry c).draws = s.draws := rfl
@[simp] theorem State.setAcarry_reg (s : State) (c : Bool) (k : Reg) : (s.setAcarry c).reg k = s.reg k := rfl
@[simp] theorem State.setAcarry_pred (s : State) (c : Bool) (k : Pred) : (s.setAcarry c).pred k = s.pred k := rfl

/-! ### `State.setMulms` -/

@[simp] theorem State.setMulms_regs (s : State) (v : Dword) : (s.setMulms v).regs = s.regs := rfl
@[simp] theorem State.setMulms_preds (s : State) (v : Dword) : (s.setMulms v).preds = s.preds := rfl
@[simp] theorem State.setMulms_pc (s : State) (v : Dword) : (s.setMulms v).pc = s.pc := rfl
@[simp] theorem State.setMulms_ien (s : State) (v : Dword) : (s.setMulms v).ien = s.ien := rfl
@[simp] theorem State.setMulms_cycles (s : State) (v : Dword) : (s.setMulms v).cycles = s.cycles := rfl
@[simp] theorem State.setMulms_instrs (s : State) (v : Dword) : (s.setMulms v).instrs = s.instrs := rfl
@[simp] theorem State.setMulms_mulms (s : State) (v : Dword) : (s.setMulms v).mulms = v := rfl
@[simp] theorem State.setMulms_divmsi (s : State) (v : Dword) : (s.setMulms v).divmsi = s.divmsi := rfl
@[simp] theorem State.setMulms_divmso (s : State) (v : Dword) : (s.setMulms v).divmso = s.divmso := rfl
@[simp] theorem State.setMulms_carry (s : State) (v : Dword) : (s.setMulms v).carry = s.carry := rfl
@[simp] theorem State.setMulms_acarry (s : State) (v : Dword) : (s.setMulms v).acarry = s.acarry := rfl
@[simp] theorem State.setMulms_pcSave (s : State) (v : Dword) : (s.setMulms v).pcSave = s.pcSave := rfl
@[simp] theorem State.setMulms_mem (s : State) (v : Dword) : (s.setMulms v).mem = s.mem := rfl
@[simp] theorem State.setMulms_irqs (s : State) (v : Dword) : (s.setMulms v).irqs = s.irqs := rfl
@[simp] theorem State.setMulms_memoryMap (s : State) (v : Dword) : (s.setMulms v).memoryMap = s.memoryMap := rfl
@[simp] theorem State.setMulms_extraSr (s : State) (v : Dword) : (s.setMulms v).extraSr = s.extraSr := rfl
@[simp] theorem State.setMulms_deviceLog (s : State) (v : Dword) : (s.setMulms v).deviceLog = s.deviceLog := rfl
@[simp] theorem State.setMulms_draws (s : State) (v : Dword) : (s.setMulms v).draws = s.draws := rfl
@[simp] theorem State.setMulms_reg (s : State) (v : Dword) (k : Reg) : (s.setMulms v).reg k = s.reg k := rfl
@[simp] theorem State.setMulms_pred (s : State) (v : Dword) (k : Pred) : (s.setMulms v).pred k = s.pred k := rfl

/-! ### `State.setDivmso` -/

@[simp] theorem State.setDivmso_regs (s : State) (v : Dword) : (s.setDivmso v).regs = s.regs := rfl
@[simp] theorem State.setDivmso_preds (s : State) (v : Dword) : (s.setDivmso v).preds = s.preds := rfl
@[simp] theorem State.setDivmso_pc (s : State) (v : Dword) : (s.setDivmso v).pc = s.pc := rfl
@[simp] theorem State.setDivmso_ien (s : State) (v : Dword) : (s.setDivmso v).ien = s.ien := rfl
@[simp] theorem State.setDivmso_cycles (s : State) (v : Dword) : (s.setDivmso v).cycles = s.cycles := rfl
@[simp] theorem State.setDivmso_instrs (s : State) (v : Dword) : (s.setDivmso v).instrs = s.instrs := rfl
@[simp] theorem State.setDivmso_mulms (s : State) (v : Dword) : (s.setDivmso v).mulms = s.mulms := rfl
@[simp] theorem State.setDivmso_divmsi (s : State) (v : Dword) : (s.setDivmso v).divmsi = s.divmsi := rfl
@[simp] theorem State.setDivmso_divmso (s : State) (v : Dword) : (s.setDivmso v).divmso = v := rfl
@[simp] theorem State.setDivmso_carry (s : State) (v : Dword) : (s.setDivmso v).carry = s.carry := rfl
@[simp] theorem State.setDivmso_acarry (s : State) (v : Dword) : (s.setDivmso v).acarry = s.acarry := rfl
@[simp] theorem State.setDivmso_pcSave (s : State) (v : Dword) : (s.setDivmso v).pcSave = s.pcSave := rfl
@[simp] theorem State.setDivmso_mem (s : State) (v : Dword) : (s.setDivmso v).mem = s.mem := rfl
@[simp] theorem State.setDivmso_irqs (s : State) (v : Dword) : (s.setDivmso v).irqs = s.irqs := rfl
@[simp] theorem State.setDivmso_memoryMap (s : State) (v : Dword) : (s.setDivmso v).memoryMap = s.memoryMap := rfl
@[simp] theorem State.setDivmso_extraSr (s : State) (v : Dword) : (s.setDivmso v).extraSr = s.extraSr := rfl
@[simp] theorem State.setDivmso_deviceLog (s : State) (v : Dword) : (s.setDivmso v).deviceLog = s.deviceLog := rfl
@[simp] theorem State.setDivmso_draws (s : State) (v : Dword) : (s.setDivmso v).draws = s.draws := rfl
@[simp] theorem State.setDivmso_reg (s : State) (v : Dword) (k : Reg) : (s.setDivmso v).reg k = s.reg k := rfl
@[simp] theorem State.setDivmso_pred (s : State) (v : Dword) (k : Pred) : (s.setDivmso v).pred k = s.pred k := rfl

/-! ### `State.setMem` -/

@[simp] theorem State.setMem_regs (s : State) (m : Memory) : (s.setMem m).regs = s.regs := rfl
@[simp] theorem State.setMem_preds (s : State) (m : Memory) : (s.setMem m).preds = s.preds := rfl
@[simp] theorem State.setMem_pc (s : State) (m : Memory) : (s.setMem m).pc = s.pc := rfl
@[simp] theorem State.setMem_ien (s : State) (m : Memory) : (s.setMem m).ien = s.ien := rfl
@[simp] theorem State.setMem_cycles (s : State) (m : Memory) : (s.setMem m).cycles = s.cycles := rfl
@[simp] theorem State.setMem_instrs (s : State) (m : Memory) : (s.setMem m).instrs = s.instrs := rfl
@[simp] theorem State.setMem_mulms (s : State) (m : Memory) : (s.setMem m).mulms = s.mulms := rfl
@[simp] theorem State.setMem_divmsi (s : State) (m : Memory) : (s.setMem m).divmsi = s.divmsi := rfl
@[simp] theorem State.setMem_divmso (s : State) (m : Memory) : (s.setMem m).divmso = s.divmso := rfl
@[simp] theorem State.setMem_carry (s : State) (m : Memory) : (s.setMem m).carry = s.carry := rfl
@[simp] theorem State.setMem_acarry (s : State) (m : Memory) : (s.setMem m).acarry = s.acarry := rfl
@[simp] theorem State.setMem_pcSave (s : State) (m : Memory) : (s.setMem m).pcSave = s.pcSave := rfl
@[simp] theorem State.setMem_mem (s : State) (m : Memory) : (s.setMem m).mem = m := rfl
@[simp] theorem State.setMem_irqs (s : State) (m : Memory) : (s.setMem m).irqs = s.irqs := rfl
@[simp] theorem State.setMem_memoryMap (s : State) (m : Memory) : (s.setMem m).memoryMap = s.memoryMap := rfl
@[simp] theorem State.setMem_extraSr (s : State) (m : Memory) : (s.setMem m).extraSr = s.extraSr := rfl
@[simp] theorem State.setMem_deviceLog (s : State) (m : Memory) : (s.setMem m).deviceLog = s.deviceLog := rfl
@[simp] theorem State.setMem_draws (s : State) (m : Memory) : (s.setMem m).draws = s.draws := rfl
@[simp] theorem State.setMem_reg (s : State) (m : Memory) (k : Reg) : (s.setMem m).reg k = s.reg k := rfl
@[simp] theorem State.setMem_pred (s : State) (m : Memory) (k : Pred) : (s.setMem m).pred k = s.pred k := rfl

/-! ### `State.retire` -/

@[simp] theorem State.retire_regs (s : State) : (s.retire).regs = s.regs := rfl
@[simp] theorem State.retire_preds (s : State) : (s.retire).preds = s.preds := rfl
@[simp] theorem State.retire_pc (s : State) : (s.retire).pc = s.pc := rfl
@[simp] theorem State.retire_ien (s : State) : (s.retire).ien = s.ien := rfl
@[simp] theorem State.retire_cycles (s : State) : (s.retire).cycles = s.cycles := rfl
@[simp] theorem State.retire_instrs (s : State) : (s.retire).instrs = s.instrs + 1 := rfl
@[simp] theorem State.retire_mulms (s : State) : (s.retire).mulms = s.mulms := rfl
@[simp] theorem State.retire_divmsi (s : State) : (s.retire).divmsi = s.divmsi := rfl
@[simp] theorem State.retire_divmso (s : State) : (s.retire).divmso = s.divmso := rfl
@[simp] theorem State.retire_carry (s : State) : (s.retire).carry = s.carry := rfl
@[simp] theorem State.retire_acarry (s : State) : (s.retire).acarry = s.acarry := rfl
@[simp] theorem State.retire_pcSave (s : State) : (s.retire).pcSave = s.pcSave := rfl
@[simp] theorem State.retire_mem (s : State) : (s.retire).mem = s.mem := rfl
@[simp] theorem State.retire_irqs (s : State) : (s.retire).irqs = s.irqs := rfl
@[simp] theorem State.retire_memoryMap (s : State) : (s.retire).memoryMap = s.memoryMap := rfl
@[simp] theorem State.retire_extraSr (s : State) : (s.retire).extraSr = s.extraSr := rfl
@[simp] theorem State.retire_deviceLog (s : State) : (s.retire).deviceLog = s.deviceLog := rfl
@[simp] theorem State.retire_draws (s : State) : (s.retire).draws = s.draws := rfl
@[simp] theorem State.retire_reg (s : State) (k : Reg) : (s.retire).reg k = s.reg k := rfl
@[simp] theorem State.retire_pred (s : State) (k : Pred) : (s.retire).pred k = s.pred k := rfl

/-! ### `State.setReg` -/

@[simp] theorem State.setReg_regs (s : State) (r : Reg) (v : Dword) : (s.setReg r v).regs = if r = 0 then s.regs else s.regs.set r.val v := rfl
@[simp] theorem State.setReg_preds (s : State) (r : Reg) (v : Dword) : (s.setReg r v).preds = s.preds := rfl
@[simp] theorem State.setReg_pc (s : State) (r : Reg) (v : Dword) : (s.setReg r v).pc = s.pc := rfl
@[simp] theorem State.setReg_ien (s : State) (r : Reg) (v : Dword) : (s.setReg r v).ien = s.ien := rfl
@[simp] theorem State.setReg_cycles (s : State) (r : Reg) (v : Dword) : (s.setReg r v).cycles = s.cycles := rfl
@[simp] theorem State.setReg_instrs (s : State) (r : Reg) (v : Dword) : (s.setReg r v).instrs = s.instrs := rfl
@[simp] theorem State.setReg_mulms (s : State) (r : Reg) (v : Dword) : (s.setReg r v).mulms = s.mulms := rfl
@[simp] theorem State.setReg_divmsi (s : State) (r : Reg) (v : Dword) : (s.setReg r v).divmsi = s.divmsi := rfl
@[simp] theorem State.setReg_divmso (s : State) (r : Reg) (v : Dword) : (s.setReg r v).divmso = s.divmso := rfl
@[simp] theorem State.setReg_carry (s : State) (r : Reg) (v : Dword) : (s.setReg r v).carry = s.carry := rfl
@[simp] theorem State.setReg_acarry (s : State) (r : Reg) (v : Dword) : (s.setReg r v).acarry = s.acarry := rfl
@[simp] theorem State.setReg_pcSave (s : State) (r : Reg) (v : Dword) : (s.setReg r v).pcSave = s.pcSave := rfl
@[simp] theorem State.setReg_mem (s : State) (r : Reg) (v : Dword) : (s.setReg r v).mem = s.mem := rfl
@[simp] theorem State.setReg_irqs (s : State) (r : Reg) (v : Dword) : (s.setReg r v).irqs = s.irqs := rfl
@[simp] theorem State.setReg_memoryMap (s : State) (r : Reg) (v : Dword) : (s.setReg r v).memoryMap = s.memoryMap := rfl
@[simp] theorem State.setReg_extraSr (s : State) (r : Reg) (v : Dword) : (s.setReg r v).extraSr = s.extraSr := rfl
@[simp] theorem State.setReg_deviceLog (s : State) (r : Reg) (v : Dword) : (s.setReg r v).deviceLog = s.deviceLog := rfl
@[simp] theorem State.setReg_draws (s : State) (r : Reg) (v : Dword) : (s.setReg r v).draws = s.draws := rfl
@[simp] theorem State.setReg_pred (s : State) (r : Reg) (v : Dword) (k : Pred) : (s.setReg r v).pred k = s.pred k := rfl

/-! ### `State.setPred` -/

@[simp] theorem State.setPred_regs (s : State) (q : Pred) (b : Bool) : (s.setPred q b).regs = s.regs := rfl
@[simp] theorem State.setPred_preds (s : State) (q : Pred) (b : Bool) : (s.setPred q b).preds = if q = 0 then s.preds else s.preds.set q.val b := rfl
@[simp] theorem State.setPred_pc (s : State) (q : Pred) (b : Bool) : (s.setPred q b).pc = s.pc := rfl
@[simp] theorem State.setPred_ien (s : State) (q : Pred) (b : Bool) : (s.setPred q b).ien = s.ien := rfl
@[simp] theorem State.setPred_cycles (s : State) (q : Pred) (b : Bool) : (s.setPred q b).cycles = s.cycles := rfl
@[simp] theorem State.setPred_instrs (s : State) (q : Pred) (b : Bool) : (s.setPred q b).instrs = s.instrs := rfl
@[simp] theorem State.setPred_mulms (s : State) (q : Pred) (b : Bool) : (s.setPred q b).mulms = s.mulms := rfl
@[simp] theorem State.setPred_divmsi (s : State) (q : Pred) (b : Bool) : (s.setPred q b).divmsi = s.divmsi := rfl
@[simp] theorem State.setPred_divmso (s : State) (q : Pred) (b : Bool) : (s.setPred q b).divmso = s.divmso := rfl
@[simp] theorem State.setPred_carry (s : State) (q : Pred) (b : Bool) : (s.setPred q b).carry = s.carry := rfl
@[simp] theorem State.setPred_acarry (s : State) (q : Pred) (b : Bool) : (s.setPred q b).acarry = s.acarry := rfl
@[simp] theorem State.setPred_pcSave (s : State) (q : Pred) (b : Bool) : (s.setPred q b).pcSave = s.pcSave := rfl
@[simp] theorem State.setPred_mem (s : State) (q : Pred) (b : Bool) : (s.setPred q b).mem = s.mem := rfl
@[simp] theorem State.setPred_irqs (s : State) (q : Pred) (b : Bool) : (s.setPred q b).irqs = s.irqs := rfl
@[simp] theorem State.setPred_memoryMap (s : State) (q : Pred) (b : Bool) : (s.setPred q b).memoryMap = s.memoryMap := rfl
@[simp] theorem State.setPred_extraSr (s : State) (q : Pred) (b : Bool) : (s.setPred q b).extraSr = s.extraSr := rfl
@[simp] theorem State.setPred_deviceLog (s : State) (q : Pred) (b : Bool) : (s.setPred q b).deviceLog = s.deviceLog := rfl
@[simp] theorem State.setPred_draws (s : State) (q : Pred) (b : Bool) : (s.setPred q b).draws = s.draws := rfl
@[simp] theorem State.setPred_reg (s : State) (q : Pred) (b : Bool) (k : Reg) : (s.setPred q b).reg k = s.reg k := rfl

/-! ### `State.advance` -/

@[simp] theorem State.advance_regs (s : State) : (s.advance).regs = s.regs := rfl
@[simp] theorem State.advance_preds (s : State) : (s.advance).preds = s.preds := rfl
@[simp] theorem State.advance_pc (s : State) : (s.advance).pc = nextPc s.pc := rfl
@[simp] theorem State.advance_ien (s : State) : (s.advance).ien = s.ien := rfl
@[simp] theorem State.advance_cycles (s : State) : (s.advance).cycles = s.cycles := rfl
@[simp] theorem State.advance_instrs (s : State) : (s.advance).instrs = s.instrs := rfl
@[simp] theorem State.advance_mulms (s : State) : (s.advance).mulms = s.mulms := rfl
@[simp] theorem State.advance_divmsi (s : State) : (s.advance).divmsi = s.divmsi := rfl
@[simp] theorem State.advance_divmso (s : State) : (s.advance).divmso = s.divmso := rfl
@[simp] theorem State.advance_carry (s : State) : (s.advance).carry = s.carry := rfl
@[simp] theorem State.advance_acarry (s : State) : (s.advance).acarry = s.acarry := rfl
@[simp] theorem State.advance_pcSave (s : State) : (s.advance).pcSave = s.pcSave := rfl
@[simp] theorem State.advance_mem (s : State) : (s.advance).mem = s.mem := rfl
@[simp] theorem State.advance_irqs (s : State) : (s.advance).irqs = s.irqs := rfl
@[simp] theorem State.advance_memoryMap (s : State) : (s.advance).memoryMap = s.memoryMap := rfl
@[simp] theorem State.advance_extraSr (s : State) : (s.advance).extraSr = s.extraSr := rfl
@[simp] theorem State.advance_deviceLog (s : State) : (s.advance).deviceLog = s.deviceLog := rfl
@[simp] theorem State.advance_draws (s : State) : (s.advance).draws = s.draws := rfl
@[simp] theorem State.advance_reg (s : State) (k : Reg) : (s.advance).reg k = s.reg k := rfl
@[simp] theorem State.advance_pred (s : State) (k : Pred) : (s.advance).pred k = s.pred k := rfl

/-! ### `State.takeTrap` -/

@[simp] theorem State.takeTrap_regs (s : State) (n : Nat) (ret : Addr) : (s.takeTrap n ret).regs = s.regs := rfl
@[simp] theorem State.takeTrap_preds (s : State) (n : Nat) (ret : Addr) : (s.takeTrap n ret).preds = s.preds := rfl
@[simp] theorem State.takeTrap_pc (s : State) (n : Nat) (ret : Addr) : (s.takeTrap n ret).pc = BitVec.ofNat 32 (Config.vectorStride * n) := rfl
@[simp] theorem State.takeTrap_ien (s : State) (n : Nat) (ret : Addr) : (s.takeTrap n ret).ien = false := rfl
@[simp] theorem State.takeTrap_cycles (s : State) (n : Nat) (ret : Addr) : (s.takeTrap n ret).cycles = s.cycles := rfl
@[simp] theorem State.takeTrap_instrs (s : State) (n : Nat) (ret : Addr) : (s.takeTrap n ret).instrs = s.instrs := rfl
@[simp] theorem State.takeTrap_mulms (s : State) (n : Nat) (ret : Addr) : (s.takeTrap n ret).mulms = s.mulms := rfl
@[simp] theorem State.takeTrap_divmsi (s : State) (n : Nat) (ret : Addr) : (s.takeTrap n ret).divmsi = s.divmsi := rfl
@[simp] theorem State.takeTrap_divmso (s : State) (n : Nat) (ret : Addr) : (s.takeTrap n ret).divmso = s.divmso := rfl
@[simp] theorem State.takeTrap_carry (s : State) (n : Nat) (ret : Addr) : (s.takeTrap n ret).carry = s.carry := rfl
@[simp] theorem State.takeTrap_acarry (s : State) (n : Nat) (ret : Addr) : (s.takeTrap n ret).acarry = s.acarry := rfl
@[simp] theorem State.takeTrap_pcSave (s : State) (n : Nat) (ret : Addr) : (s.takeTrap n ret).pcSave = ret := rfl
@[simp] theorem State.takeTrap_mem (s : State) (n : Nat) (ret : Addr) : (s.takeTrap n ret).mem = s.mem := rfl
@[simp] theorem State.takeTrap_irqs (s : State) (n : Nat) (ret : Addr) : (s.takeTrap n ret).irqs = s.irqs := rfl
@[simp] theorem State.takeTrap_memoryMap (s : State) (n : Nat) (ret : Addr) : (s.takeTrap n ret).memoryMap = s.memoryMap := rfl
@[simp] theorem State.takeTrap_extraSr (s : State) (n : Nat) (ret : Addr) : (s.takeTrap n ret).extraSr = s.extraSr := rfl
@[simp] theorem State.takeTrap_deviceLog (s : State) (n : Nat) (ret : Addr) : (s.takeTrap n ret).deviceLog = s.deviceLog := rfl
@[simp] theorem State.takeTrap_draws (s : State) (n : Nat) (ret : Addr) : (s.takeTrap n ret).draws = s.draws := rfl
@[simp] theorem State.takeTrap_reg (s : State) (n : Nat) (ret : Addr) (k : Reg) : (s.takeTrap n ret).reg k = s.reg k := rfl
@[simp] theorem State.takeTrap_pred (s : State) (n : Nat) (ret : Addr) (k : Pred) : (s.takeTrap n ret).pred k = s.pred k := rfl

/-! ### `State.returnFromTrap` -/

@[simp] theorem State.returnFromTrap_regs (s : State) : (s.returnFromTrap).regs = s.regs := rfl
@[simp] theorem State.returnFromTrap_preds (s : State) : (s.returnFromTrap).preds = s.preds := rfl
@[simp] theorem State.returnFromTrap_pc (s : State) : (s.returnFromTrap).pc = clearBit0 s.pcSave := rfl
@[simp] theorem State.returnFromTrap_ien (s : State) : (s.returnFromTrap).ien = true := rfl
@[simp] theorem State.returnFromTrap_cycles (s : State) : (s.returnFromTrap).cycles = s.cycles := rfl
@[simp] theorem State.returnFromTrap_instrs (s : State) : (s.returnFromTrap).instrs = s.instrs := rfl
@[simp] theorem State.returnFromTrap_mulms (s : State) : (s.returnFromTrap).mulms = s.mulms := rfl
@[simp] theorem State.returnFromTrap_divmsi (s : State) : (s.returnFromTrap).divmsi = s.divmsi := rfl
@[simp] theorem State.returnFromTrap_divmso (s : State) : (s.returnFromTrap).divmso = s.divmso := rfl
@[simp] theorem State.returnFromTrap_carry (s : State) : (s.returnFromTrap).carry = s.carry := rfl
@[simp] theorem State.returnFromTrap_acarry (s : State) : (s.returnFromTrap).acarry = s.acarry := rfl
@[simp] theorem State.returnFromTrap_pcSave (s : State) : (s.returnFromTrap).pcSave = s.pcSave := rfl
@[simp] theorem State.returnFromTrap_mem (s : State) : (s.returnFromTrap).mem = s.mem := rfl
@[simp] theorem State.returnFromTrap_irqs (s : State) : (s.returnFromTrap).irqs = s.irqs := rfl
@[simp] theorem State.returnFromTrap_memoryMap (s : State) : (s.returnFromTrap).memoryMap = s.memoryMap := rfl
@[simp] theorem State.returnFromTrap_extraSr (s : State) : (s.returnFromTrap).extraSr = s.extraSr := rfl
@[simp] theorem State.returnFromTrap_deviceLog (s : State) : (s.returnFromTrap).deviceLog = s.deviceLog := rfl
@[simp] theorem State.returnFromTrap_draws (s : State) : (s.returnFromTrap).draws = s.draws := rfl
@[simp] theorem State.returnFromTrap_reg (s : State) (k : Reg) : (s.returnFromTrap).reg k = s.reg k := rfl
@[simp] theorem State.returnFromTrap_pred (s : State) (k : Pred) : (s.returnFromTrap).pred k = s.pred k := rfl

/-! ### `State.beginStep` -/

@[simp] theorem State.beginStep_regs (s : State) : (s.beginStep).regs = s.regs := rfl
@[simp] theorem State.beginStep_preds (s : State) : (s.beginStep).preds = s.preds := rfl
@[simp] theorem State.beginStep_pc (s : State) : (s.beginStep).pc = s.pc := rfl
@[simp] theorem State.beginStep_ien (s : State) : (s.beginStep).ien = s.ien := rfl
@[simp] theorem State.beginStep_cycles (s : State) : (s.beginStep).cycles = s.cycles + Config.clockTicks s.draws := rfl
@[simp] theorem State.beginStep_instrs (s : State) : (s.beginStep).instrs = s.instrs := rfl
@[simp] theorem State.beginStep_mulms (s : State) : (s.beginStep).mulms = s.mulms := rfl
@[simp] theorem State.beginStep_divmsi (s : State) : (s.beginStep).divmsi = s.divmsi := rfl
@[simp] theorem State.beginStep_divmso (s : State) : (s.beginStep).divmso = s.divmso := rfl
@[simp] theorem State.beginStep_carry (s : State) : (s.beginStep).carry = s.carry := rfl
@[simp] theorem State.beginStep_acarry (s : State) : (s.beginStep).acarry = s.acarry := rfl
@[simp] theorem State.beginStep_pcSave (s : State) : (s.beginStep).pcSave = s.pcSave := rfl
@[simp] theorem State.beginStep_mem (s : State) : (s.beginStep).mem = s.mem := rfl
@[simp] theorem State.beginStep_irqs (s : State) : (s.beginStep).irqs = s.irqs.tail := rfl
@[simp] theorem State.beginStep_memoryMap (s : State) : (s.beginStep).memoryMap = s.memoryMap := rfl
@[simp] theorem State.beginStep_extraSr (s : State) : (s.beginStep).extraSr = s.extraSr := rfl
@[simp] theorem State.beginStep_deviceLog (s : State) : (s.beginStep).deviceLog = s.deviceLog := rfl
@[simp] theorem State.beginStep_draws (s : State) : (s.beginStep).draws = s.draws + 1 := rfl
@[simp] theorem State.beginStep_reg (s : State) (k : Reg) : (s.beginStep).reg k = s.reg k := rfl
@[simp] theorem State.beginStep_pred (s : State) (k : Pred) : (s.beginStep).pred k = s.pred k := rfl

/-! ### `State.logAccess` -/

@[simp] theorem State.logAccess_regs (s : State) (d : DeviceId) (x : DeviceAccess) : (s.logAccess d x).regs = s.regs := rfl
@[simp] theorem State.logAccess_preds (s : State) (d : DeviceId) (x : DeviceAccess) : (s.logAccess d x).preds = s.preds := rfl
@[simp] theorem State.logAccess_pc (s : State) (d : DeviceId) (x : DeviceAccess) : (s.logAccess d x).pc = s.pc := rfl
@[simp] theorem State.logAccess_ien (s : State) (d : DeviceId) (x : DeviceAccess) : (s.logAccess d x).ien = s.ien := rfl
@[simp] theorem State.logAccess_cycles (s : State) (d : DeviceId) (x : DeviceAccess) : (s.logAccess d x).cycles = s.cycles := rfl
@[simp] theorem State.logAccess_instrs (s : State) (d : DeviceId) (x : DeviceAccess) : (s.logAccess d x).instrs = s.instrs := rfl
@[simp] theorem State.logAccess_mulms (s : State) (d : DeviceId) (x : DeviceAccess) : (s.logAccess d x).mulms = s.mulms := rfl
@[simp] theorem State.logAccess_divmsi (s : State) (d : DeviceId) (x : DeviceAccess) : (s.logAccess d x).divmsi = s.divmsi := rfl
@[simp] theorem State.logAccess_divmso (s : State) (d : DeviceId) (x : DeviceAccess) : (s.logAccess d x).divmso = s.divmso := rfl
@[simp] theorem State.logAccess_carry (s : State) (d : DeviceId) (x : DeviceAccess) : (s.logAccess d x).carry = s.carry := rfl
@[simp] theorem State.logAccess_acarry (s : State) (d : DeviceId) (x : DeviceAccess) : (s.logAccess d x).acarry = s.acarry := rfl
@[simp] theorem State.logAccess_pcSave (s : State) (d : DeviceId) (x : DeviceAccess) : (s.logAccess d x).pcSave = s.pcSave := rfl
@[simp] theorem State.logAccess_mem (s : State) (d : DeviceId) (x : DeviceAccess) : (s.logAccess d x).mem = s.mem := rfl
@[simp] theorem State.logAccess_irqs (s : State) (d : DeviceId) (x : DeviceAccess) : (s.logAccess d x).irqs = s.irqs := rfl
@[simp] theorem State.logAccess_memoryMap (s : State) (d : DeviceId) (x : DeviceAccess) : (s.logAccess d x).memoryMap = s.memoryMap := rfl
@[simp] theorem State.logAccess_extraSr (s : State) (d : DeviceId) (x : DeviceAccess) : (s.logAccess d x).extraSr = s.extraSr := rfl
@[simp] theorem State.logAccess_deviceLog (s : State) (d : DeviceId) (x : DeviceAccess) : (s.logAccess d x).deviceLog = ⟨d, s.draws, x⟩ :: s.deviceLog := rfl
@[simp] theorem State.logAccess_draws (s : State) (d : DeviceId) (x : DeviceAccess) : (s.logAccess d x).draws = s.draws := rfl
@[simp] theorem State.logAccess_reg (s : State) (d : DeviceId) (x : DeviceAccess) (k : Reg) : (s.logAccess d x).reg k = s.reg k := rfl
@[simp] theorem State.logAccess_pred (s : State) (d : DeviceId) (x : DeviceAccess) (k : Pred) : (s.logAccess d x).pred k = s.pred k := rfl

/-! ### `State.afterRead` -/

@[simp] theorem State.afterRead_regs (s : State) (d : Option DeviceId) (x : DeviceAccess) : (s.afterRead d x).regs = s.regs := by cases d <;> rfl
@[simp] theorem State.afterRead_preds (s : State) (d : Option DeviceId) (x : DeviceAccess) : (s.afterRead d x).preds = s.preds := by cases d <;> rfl
@[simp] theorem State.afterRead_pc (s : State) (d : Option DeviceId) (x : DeviceAccess) : (s.afterRead d x).pc = s.pc := by cases d <;> rfl
@[simp] theorem State.afterRead_ien (s : State) (d : Option DeviceId) (x : DeviceAccess) : (s.afterRead d x).ien = s.ien := by cases d <;> rfl
@[simp] theorem State.afterRead_cycles (s : State) (d : Option DeviceId) (x : DeviceAccess) : (s.afterRead d x).cycles = s.cycles := by cases d <;> rfl
@[simp] theorem State.afterRead_instrs (s : State) (d : Option DeviceId) (x : DeviceAccess) : (s.afterRead d x).instrs = s.instrs := by cases d <;> rfl
@[simp] theorem State.afterRead_mulms (s : State) (d : Option DeviceId) (x : DeviceAccess) : (s.afterRead d x).mulms = s.mulms := by cases d <;> rfl
@[simp] theorem State.afterRead_divmsi (s : State) (d : Option DeviceId) (x : DeviceAccess) : (s.afterRead d x).divmsi = s.divmsi := by cases d <;> rfl
@[simp] theorem State.afterRead_divmso (s : State) (d : Option DeviceId) (x : DeviceAccess) : (s.afterRead d x).divmso = s.divmso := by cases d <;> rfl
@[simp] theorem State.afterRead_carry (s : State) (d : Option DeviceId) (x : DeviceAccess) : (s.afterRead d x).carry = s.carry := by cases d <;> rfl
@[simp] theorem State.afterRead_acarry (s : State) (d : Option DeviceId) (x : DeviceAccess) : (s.afterRead d x).acarry = s.acarry := by cases d <;> rfl
@[simp] theorem State.afterRead_pcSave (s : State) (d : Option DeviceId) (x : DeviceAccess) : (s.afterRead d x).pcSave = s.pcSave := by cases d <;> rfl
@[simp] theorem State.afterRead_mem (s : State) (d : Option DeviceId) (x : DeviceAccess) : (s.afterRead d x).mem = s.mem := by cases d <;> rfl
@[simp] theorem State.afterRead_irqs (s : State) (d : Option DeviceId) (x : DeviceAccess) : (s.afterRead d x).irqs = s.irqs := by cases d <;> rfl
@[simp] theorem State.afterRead_memoryMap (s : State) (d : Option DeviceId) (x : DeviceAccess) : (s.afterRead d x).memoryMap = s.memoryMap := by cases d <;> rfl
@[simp] theorem State.afterRead_extraSr (s : State) (d : Option DeviceId) (x : DeviceAccess) : (s.afterRead d x).extraSr = s.extraSr := by cases d <;> rfl
@[simp] theorem State.afterRead_draws (s : State) (d : Option DeviceId) (x : DeviceAccess) : (s.afterRead d x).draws = s.draws := by cases d <;> rfl
@[simp] theorem State.afterRead_reg (s : State) (d : Option DeviceId) (x : DeviceAccess) (k : Reg) : (s.afterRead d x).reg k = s.reg k := by cases d <;> rfl
@[simp] theorem State.afterRead_pred (s : State) (d : Option DeviceId) (x : DeviceAccess) (k : Pred) : (s.afterRead d x).pred k = s.pred k := by cases d <;> rfl

/-! ### `State.afterWord` -/

@[simp] theorem State.afterWord_regs (s : State) (a : Addr) : (s.afterWord a).regs = s.regs := s.afterRead_regs _ _
@[simp] theorem State.afterWord_preds (s : State) (a : Addr) : (s.afterWord a).preds = s.preds := s.afterRead_preds _ _
@[simp] theorem State.afterWord_pc (s : State) (a : Addr) : (s.afterWord a).pc = s.pc := s.afterRead_pc _ _
@[simp] theorem State.afterWord_ien (s : State) (a : Addr) : (s.afterWord a).ien = s.ien := s.afterRead_ien _ _
@[simp] theorem State.afterWord_cycles (s : State) (a : Addr) : (s.afterWord a).cycles = s.cycles := s.afterRead_cycles _ _
@[simp] theorem State.afterWord_instrs (s : State) (a : Addr) : (s.afterWord a).instrs = s.instrs := s.afterRead_instrs _ _
@[simp] theorem State.afterWord_mulms (s : State) (a : Addr) : (s.afterWord a).mulms = s.mulms := s.afterRead_mulms _ _
@[simp] theorem State.afterWord_divmsi (s : State) (a : Addr) : (s.afterWord a).divmsi = s.divmsi := s.afterRead_divmsi _ _
@[simp] theorem State.afterWord_divmso (s : State) (a : Addr) : (s.afterWord a).divmso = s.divmso := s.afterRead_divmso _ _
@[simp] theorem State.afterWord_carry (s : State) (a : Addr) : (s.afterWord a).carry = s.carry := s.afterRead_carry _ _
@[simp] theorem State.afterWord_acarry (s : State) (a : Addr) : (s.afterWord a).acarry = s.acarry := s.afterRead_acarry _ _
@[simp] theorem State.afterWord_pcSave (s : State) (a : Addr) : (s.afterWord a).pcSave = s.pcSave := s.afterRead_pcSave _ _
@[simp] theorem State.afterWord_mem (s : State) (a : Addr) : (s.afterWord a).mem = s.mem := s.afterRead_mem _ _
@[simp] theorem State.afterWord_irqs (s : State) (a : Addr) : (s.afterWord a).irqs = s.irqs := s.afterRead_irqs _ _
@[simp] theorem State.afterWord_memoryMap (s : State) (a : Addr) : (s.afterWord a).memoryMap = s.memoryMap := s.afterRead_memoryMap _ _
@[simp] theorem State.afterWord_extraSr (s : State) (a : Addr) : (s.afterWord a).extraSr = s.extraSr := s.afterRead_extraSr _ _
@[simp] theorem State.afterWord_draws (s : State) (a : Addr) : (s.afterWord a).draws = s.draws := s.afterRead_draws _ _
@[simp] theorem State.afterWord_reg (s : State) (a : Addr) (k : Reg) : (s.afterWord a).reg k = s.reg k := s.afterRead_reg _ _ k
@[simp] theorem State.afterWord_pred (s : State) (a : Addr) (k : Pred) : (s.afterWord a).pred k = s.pred k := s.afterRead_pred _ _ k

/-! ### `State.afterDword` -/

@[simp] theorem State.afterDword_regs (s : State) (a : Addr) : (s.afterDword a).regs = s.regs := by unfold State.afterDword; split <;> simp
@[simp] theorem State.afterDword_preds (s : State) (a : Addr) : (s.afterDword a).preds = s.preds := by unfold State.afterDword; split <;> simp
@[simp] theorem State.afterDword_pc (s : State) (a : Addr) : (s.afterDword a).pc = s.pc := by unfold State.afterDword; split <;> simp
@[simp] theorem State.afterDword_ien (s : State) (a : Addr) : (s.afterDword a).ien = s.ien := by unfold State.afterDword; split <;> simp
@[simp] theorem State.afterDword_cycles (s : State) (a : Addr) : (s.afterDword a).cycles = s.cycles := by unfold State.afterDword; split <;> simp
@[simp] theorem State.afterDword_instrs (s : State) (a : Addr) : (s.afterDword a).instrs = s.instrs := by unfold State.afterDword; split <;> simp
@[simp] theorem State.afterDword_mulms (s : State) (a : Addr) : (s.afterDword a).mulms = s.mulms := by unfold State.afterDword; split <;> simp
@[simp] theorem State.afterDword_divmsi (s : State) (a : Addr) : (s.afterDword a).divmsi = s.divmsi := by unfold State.afterDword; split <;> simp
@[simp] theorem State.afterDword_divmso (s : State) (a : Addr) : (s.afterDword a).divmso = s.divmso := by unfold State.afterDword; split <;> simp
@[simp] theorem State.afterDword_carry (s : State) (a : Addr) : (s.afterDword a).carry = s.carry := by unfold State.afterDword; split <;> simp
@[simp] theorem State.afterDword_acarry (s : State) (a : Addr) : (s.afterDword a).acarry = s.acarry := by unfold State.afterDword; split <;> simp
@[simp] theorem State.afterDword_pcSave (s : State) (a : Addr) : (s.afterDword a).pcSave = s.pcSave := by unfold State.afterDword; split <;> simp
@[simp] theorem State.afterDword_mem (s : State) (a : Addr) : (s.afterDword a).mem = s.mem := by unfold State.afterDword; split <;> simp
@[simp] theorem State.afterDword_irqs (s : State) (a : Addr) : (s.afterDword a).irqs = s.irqs := by unfold State.afterDword; split <;> simp
@[simp] theorem State.afterDword_memoryMap (s : State) (a : Addr) : (s.afterDword a).memoryMap = s.memoryMap := by unfold State.afterDword; split <;> simp
@[simp] theorem State.afterDword_extraSr (s : State) (a : Addr) : (s.afterDword a).extraSr = s.extraSr := by unfold State.afterDword; split <;> simp
@[simp] theorem State.afterDword_draws (s : State) (a : Addr) : (s.afterDword a).draws = s.draws := by unfold State.afterDword; split <;> simp
@[simp] theorem State.afterDword_reg (s : State) (a : Addr) (k : Reg) : (s.afterDword a).reg k = s.reg k := by unfold State.afterDword; split <;> simp
@[simp] theorem State.afterDword_pred (s : State) (a : Addr) (k : Pred) : (s.afterDword a).pred k = s.pred k := by unfold State.afterDword; split <;> simp

/-! ### `State.afterSr` -/

@[simp] theorem State.afterSr_regs (s : State) (a : SrAddr) : (s.afterSr a).regs = s.regs := s.afterRead_regs _ _
@[simp] theorem State.afterSr_preds (s : State) (a : SrAddr) : (s.afterSr a).preds = s.preds := s.afterRead_preds _ _
@[simp] theorem State.afterSr_pc (s : State) (a : SrAddr) : (s.afterSr a).pc = s.pc := s.afterRead_pc _ _
@[simp] theorem State.afterSr_ien (s : State) (a : SrAddr) : (s.afterSr a).ien = s.ien := s.afterRead_ien _ _
@[simp] theorem State.afterSr_cycles (s : State) (a : SrAddr) : (s.afterSr a).cycles = s.cycles := s.afterRead_cycles _ _
@[simp] theorem State.afterSr_instrs (s : State) (a : SrAddr) : (s.afterSr a).instrs = s.instrs := s.afterRead_instrs _ _
@[simp] theorem State.afterSr_mulms (s : State) (a : SrAddr) : (s.afterSr a).mulms = s.mulms := s.afterRead_mulms _ _
@[simp] theorem State.afterSr_divmsi (s : State) (a : SrAddr) : (s.afterSr a).divmsi = s.divmsi := s.afterRead_divmsi _ _
@[simp] theorem State.afterSr_divmso (s : State) (a : SrAddr) : (s.afterSr a).divmso = s.divmso := s.afterRead_divmso _ _
@[simp] theorem State.afterSr_carry (s : State) (a : SrAddr) : (s.afterSr a).carry = s.carry := s.afterRead_carry _ _
@[simp] theorem State.afterSr_acarry (s : State) (a : SrAddr) : (s.afterSr a).acarry = s.acarry := s.afterRead_acarry _ _
@[simp] theorem State.afterSr_pcSave (s : State) (a : SrAddr) : (s.afterSr a).pcSave = s.pcSave := s.afterRead_pcSave _ _
@[simp] theorem State.afterSr_mem (s : State) (a : SrAddr) : (s.afterSr a).mem = s.mem := s.afterRead_mem _ _
@[simp] theorem State.afterSr_irqs (s : State) (a : SrAddr) : (s.afterSr a).irqs = s.irqs := s.afterRead_irqs _ _
@[simp] theorem State.afterSr_memoryMap (s : State) (a : SrAddr) : (s.afterSr a).memoryMap = s.memoryMap := s.afterRead_memoryMap _ _
@[simp] theorem State.afterSr_extraSr (s : State) (a : SrAddr) : (s.afterSr a).extraSr = s.extraSr := s.afterRead_extraSr _ _
@[simp] theorem State.afterSr_draws (s : State) (a : SrAddr) : (s.afterSr a).draws = s.draws := s.afterRead_draws _ _
@[simp] theorem State.afterSr_reg (s : State) (a : SrAddr) (k : Reg) : (s.afterSr a).reg k = s.reg k := s.afterRead_reg _ _ k
@[simp] theorem State.afterSr_pred (s : State) (a : SrAddr) (k : Pred) : (s.afterSr a).pred k = s.pred k := s.afterRead_pred _ _ k

/-! ### `State.storeWord` -/

@[simp] theorem State.storeWord_regs (s : State) (a : Addr) (v : Word) : (s.storeWord a v).regs = s.regs := by unfold State.storeWord; split <;> rfl
@[simp] theorem State.storeWord_preds (s : State) (a : Addr) (v : Word) : (s.storeWord a v).preds = s.preds := by unfold State.storeWord; split <;> rfl
@[simp] theorem State.storeWord_pc (s : State) (a : Addr) (v : Word) : (s.storeWord a v).pc = s.pc := by unfold State.storeWord; split <;> rfl
@[simp] theorem State.storeWord_ien (s : State) (a : Addr) (v : Word) : (s.storeWord a v).ien = s.ien := by unfold State.storeWord; split <;> rfl
@[simp] theorem State.storeWord_cycles (s : State) (a : Addr) (v : Word) : (s.storeWord a v).cycles = s.cycles := by unfold State.storeWord; split <;> rfl
@[simp] theorem State.storeWord_instrs (s : State) (a : Addr) (v : Word) : (s.storeWord a v).instrs = s.instrs := by unfold State.storeWord; split <;> rfl
@[simp] theorem State.storeWord_mulms (s : State) (a : Addr) (v : Word) : (s.storeWord a v).mulms = s.mulms := by unfold State.storeWord; split <;> rfl
@[simp] theorem State.storeWord_divmsi (s : State) (a : Addr) (v : Word) : (s.storeWord a v).divmsi = s.divmsi := by unfold State.storeWord; split <;> rfl
@[simp] theorem State.storeWord_divmso (s : State) (a : Addr) (v : Word) : (s.storeWord a v).divmso = s.divmso := by unfold State.storeWord; split <;> rfl
@[simp] theorem State.storeWord_carry (s : State) (a : Addr) (v : Word) : (s.storeWord a v).carry = s.carry := by unfold State.storeWord; split <;> rfl
@[simp] theorem State.storeWord_acarry (s : State) (a : Addr) (v : Word) : (s.storeWord a v).acarry = s.acarry := by unfold State.storeWord; split <;> rfl
@[simp] theorem State.storeWord_pcSave (s : State) (a : Addr) (v : Word) : (s.storeWord a v).pcSave = s.pcSave := by unfold State.storeWord; split <;> rfl
@[simp] theorem State.storeWord_irqs (s : State) (a : Addr) (v : Word) : (s.storeWord a v).irqs = s.irqs := by unfold State.storeWord; split <;> rfl
@[simp] theorem State.storeWord_memoryMap (s : State) (a : Addr) (v : Word) : (s.storeWord a v).memoryMap = s.memoryMap := by unfold State.storeWord; split <;> rfl
@[simp] theorem State.storeWord_extraSr (s : State) (a : Addr) (v : Word) : (s.storeWord a v).extraSr = s.extraSr := by unfold State.storeWord; split <;> rfl
@[simp] theorem State.storeWord_draws (s : State) (a : Addr) (v : Word) : (s.storeWord a v).draws = s.draws := by unfold State.storeWord; split <;> rfl
@[simp] theorem State.storeWord_reg (s : State) (a : Addr) (v : Word) (k : Reg) : (s.storeWord a v).reg k = s.reg k := by unfold State.storeWord; split <;> rfl
@[simp] theorem State.storeWord_pred (s : State) (a : Addr) (v : Word) (k : Pred) : (s.storeWord a v).pred k = s.pred k := by unfold State.storeWord; split <;> rfl

/-! ### `State.storeDword` -/

@[simp] theorem State.storeDword_regs (s : State) (a : Addr) (v : Dword) : (s.storeDword a v).regs = s.regs := by unfold State.storeDword; dsimp only; split; (split <;> rfl); simp
@[simp] theorem State.storeDword_preds (s : State) (a : Addr) (v : Dword) : (s.storeDword a v).preds = s.preds := by unfold State.storeDword; dsimp only; split; (split <;> rfl); simp
@[simp] theorem State.storeDword_pc (s : State) (a : Addr) (v : Dword) : (s.storeDword a v).pc = s.pc := by unfold State.storeDword; dsimp only; split; (split <;> rfl); simp
@[simp] theorem State.storeDword_ien (s : State) (a : Addr) (v : Dword) : (s.storeDword a v).ien = s.ien := by unfold State.storeDword; dsimp only; split; (split <;> rfl); simp
@[simp] theorem State.storeDword_cycles (s : State) (a : Addr) (v : Dword) : (s.storeDword a v).cycles = s.cycles := by unfold State.storeDword; dsimp only; split; (split <;> rfl); simp
@[simp] theorem State.storeDword_instrs (s : State) (a : Addr) (v : Dword) : (s.storeDword a v).instrs = s.instrs := by unfold State.storeDword; dsimp only; split; (split <;> rfl); simp
@[simp] theorem State.storeDword_mulms (s : State) (a : Addr) (v : Dword) : (s.storeDword a v).mulms = s.mulms := by unfold State.storeDword; dsimp only; split; (split <;> rfl); simp
@[simp] theorem State.storeDword_divmsi (s : State) (a : Addr) (v : Dword) : (s.storeDword a v).divmsi = s.divmsi := by unfold State.storeDword; dsimp only; split; (split <;> rfl); simp
@[simp] theorem State.storeDword_divmso (s : State) (a : Addr) (v : Dword) : (s.storeDword a v).divmso = s.divmso := by unfold State.storeDword; dsimp only; split; (split <;> rfl); simp
@[simp] theorem State.storeDword_carry (s : State) (a : Addr) (v : Dword) : (s.storeDword a v).carry = s.carry := by unfold State.storeDword; dsimp only; split; (split <;> rfl); simp
@[simp] theorem State.storeDword_acarry (s : State) (a : Addr) (v : Dword) : (s.storeDword a v).acarry = s.acarry := by unfold State.storeDword; dsimp only; split; (split <;> rfl); simp
@[simp] theorem State.storeDword_pcSave (s : State) (a : Addr) (v : Dword) : (s.storeDword a v).pcSave = s.pcSave := by unfold State.storeDword; dsimp only; split; (split <;> rfl); simp
@[simp] theorem State.storeDword_irqs (s : State) (a : Addr) (v : Dword) : (s.storeDword a v).irqs = s.irqs := by unfold State.storeDword; dsimp only; split; (split <;> rfl); simp
@[simp] theorem State.storeDword_memoryMap (s : State) (a : Addr) (v : Dword) : (s.storeDword a v).memoryMap = s.memoryMap := by unfold State.storeDword; dsimp only; split; (split <;> rfl); simp
@[simp] theorem State.storeDword_extraSr (s : State) (a : Addr) (v : Dword) : (s.storeDword a v).extraSr = s.extraSr := by unfold State.storeDword; dsimp only; split; (split <;> rfl); simp
@[simp] theorem State.storeDword_draws (s : State) (a : Addr) (v : Dword) : (s.storeDword a v).draws = s.draws := by unfold State.storeDword; dsimp only; split; (split <;> rfl); simp
@[simp] theorem State.storeDword_reg (s : State) (a : Addr) (v : Dword) (k : Reg) : (s.storeDword a v).reg k = s.reg k := by unfold State.storeDword; dsimp only; split; (split <;> rfl); simp
@[simp] theorem State.storeDword_pred (s : State) (a : Addr) (v : Dword) (k : Pred) : (s.storeDword a v).pred k = s.pred k := by unfold State.storeDword; dsimp only; split; (split <;> rfl); simp

end Sys2Proof.Machine
end

