-- ==== Sys2Proof/Laws/Memory.lean ====
section
/-! SUPPORT. Memory: what a read gives after a write, and that every write keeps the canonical form. -/

namespace Sys2Proof.Machine

/-! ### Bytes -/

/-- A write of one byte leaves every other byte alone. -/
theorem readByte_writeByte_ne (m : Memory) {j k : Nat} (b : Byte) (h : j ≠ k) :
    readByte (writeByte m k b) j = readByte m j := by
  have hkj : ¬ k = j := fun e => h e.symm
  induction m with
  | nil =>
    by_cases hb : b = Memory.unlisted <;> simp [writeByte, readByte, hb, hkj]
  | cons c rest ih =>
    obtain ⟨i, v⟩ := c
    simp only [writeByte]
    split_ifs with h1 h2 h3 h3
    · simp only [readByte, ih]
    · subst h2
      simp [readByte, hkj]
    · subst h2
      simp [readByte, hkj]
    · rfl
    · simp [readByte, hkj]

/-- Past the lowest listed address nothing below is listed. -/
theorem readByte_of_lt {m : Memory} {k : Nat} (h : ∀ c ∈ m, k < c.1) : readByte m k = Memory.unlisted := by
  induction m with
  | nil => rfl
  | cons c rest ih =>
    have hc := h c (by simp)
    have hne : ¬ c.1 = k := by omega
    simp only [readByte, hne, if_false]
    exact ih fun d hd => h d (by simp [hd])

/-- A byte reads back as written. -/
theorem readByte_writeByte_same {m : Memory} (hm : m.Pairwise (fun c d => c.1 < d.1)) (k : Nat) (b : Byte) :
    readByte (writeByte m k b) k = b := by
  induction m with
  | nil => by_cases hb : b = Memory.unlisted <;> simp [writeByte, readByte, hb]
  | cons c rest ih =>
    obtain ⟨i, v⟩ := c
    obtain ⟨hhead, htail⟩ := List.pairwise_cons.mp hm
    simp only [writeByte]
    split_ifs with h1 h2 h3 h3
    · have hne : ¬ i = k := by omega
      simp only [readByte, hne, if_false, ih htail]
    · subst h2
      rw [h3]
      exact readByte_of_lt fun d hd => hhead d hd
    · simp [readByte]
    · have hne : ¬ i = k := h2
      rw [h3]
      refine readByte_of_lt fun d hd => ?_
      rcases List.mem_cons.mp hd with rfl | hd
      · show k < i
        omega
      · have := hhead d hd
        show k < d.1
        simp only at this
        omega
    · simp [readByte]

/-- What a write can add to the list. -/
theorem mem_writeByte {m : Memory} {k : Nat} {b : Byte} {c : Host.Cell} (h : c ∈ writeByte m k b) :
    c ∈ m ∨ c = (k, b) ∧ b ≠ Memory.unlisted := by
  induction m with
  | nil =>
    by_cases hb : b = Memory.unlisted
    · simp [writeByte, hb] at h
    · simp only [writeByte, hb, if_false, List.mem_singleton] at h
      exact .inr ⟨h, hb⟩
  | cons d rest ih =>
    obtain ⟨i, v⟩ := d
    simp only [writeByte] at h
    split_ifs at h with h1 h2 h3 h3
    · rcases List.mem_cons.mp h with rfl | h
      · simp
      · rcases ih h with h | h
        · simp [h]
        · exact .inr h
    · simp [h]
    · rcases List.mem_cons.mp h with rfl | h
      · exact .inr ⟨rfl, h3⟩
      · simp [h]
    · exact .inl h
    · rcases List.mem_cons.mp h with rfl | h
      · exact .inr ⟨rfl, h3⟩
      · exact .inl h

/-- A write keeps the addresses strictly rising. -/
theorem writeByte_pairwise {m : Memory} (hm : m.Pairwise (fun c d => c.1 < d.1)) (k : Nat) (b : Byte) :
    (writeByte m k b).Pairwise (fun c d => c.1 < d.1) := by
  induction m with
  | nil => by_cases hb : b = Memory.unlisted <;> simp [writeByte, hb]
  | cons c rest ih =>
    obtain ⟨i, v⟩ := c
    obtain ⟨hhead, htail⟩ := List.pairwise_cons.mp hm
    simp only [writeByte]
    split_ifs with h1 h2 h3 h3
    · refine List.pairwise_cons.mpr ⟨fun d hd => ?_, ih htail⟩
      rcases mem_writeByte hd with hd | ⟨rfl, -⟩
      · exact hhead d hd
      · exact h1
    · exact htail
    · subst h2
      exact List.pairwise_cons.mpr ⟨fun d hd => hhead d hd, htail⟩
    · exact hm
    · refine List.pairwise_cons.mpr ⟨fun d hd => ?_, hm⟩
      rcases List.mem_cons.mp hd with rfl | hd
      · show k < i
        omega
      · have := hhead d hd
        show k < d.1
        simp only at this
        omega

/-- A write of one byte of the space keeps the canonical form. -/
theorem writeByte_wf {m : Memory} (hm : m.wf) {k : Nat} (hk : k < 2 ^ 33) (b : Byte) : (writeByte m k b).wf := by
  refine ⟨writeByte_pairwise hm.1 k b, fun c hc => ?_⟩
  rcases mem_writeByte hc with hc | ⟨rfl, hb⟩
  · exact hm.2 c hc
  · exact ⟨hk, hb⟩

/-! ### Words -/

/-- A word write keeps the canonical form. -/
theorem writeWord_wf {m : Memory} (hm : m.wf) (a : Addr) (v : Word) : (writeWord m a v).wf := by
  have := a.isLt
  exact writeByte_wf (writeByte_wf hm (by omega) _) (by omega) _

/-- The two bytes of a word put the word together again. -/
theorem word_of_bytes (v : Word) : v.extractLsb' 8 8 ++ v.extractLsb' 0 8 = v := by
  ext i hi
  simp only [BitVec.getElem_append, BitVec.getElem_extractLsb']
  split
  · simp [BitVec.getLsbD_eq_getElem, hi]
  · rename_i h
    have : 8 + (i - 8) = i := by omega
    simp [this, BitVec.getLsbD_eq_getElem, hi]

/-- A word reads back as written (20_memory.md R84, R86). -/
theorem readWord_writeWord_same {m : Memory} (hm : m.wf) (a : Addr) (v : Word) :
    readWord (writeWord m a v) a = v := by
  unfold readWord writeWord
  rw [readByte_writeByte_same (writeByte_pairwise hm.1 _ _),
    readByte_writeByte_ne _ _ (by omega), readByte_writeByte_same hm.1, word_of_bytes]

/-- A word write leaves every byte of the other words alone (20_memory.md R86). -/
theorem readByte_writeWord_ne (m : Memory) (a : Addr) (v : Word) {k : Nat} (h0 : k ≠ 2 * a.toNat)
    (h1 : k ≠ 2 * a.toNat + 1) : readByte (writeWord m a v) k = readByte m k := by
  unfold writeWord
  rw [readByte_writeByte_ne _ _ h1, readByte_writeByte_ne _ _ h0]

/-- A word write leaves every other word alone (20_memory.md R86). -/
theorem readWord_writeWord_ne (m : Memory) {a c : Addr} (v : Word) (h : c ≠ a) :
    readWord (writeWord m a v) c = readWord m c := by
  have hne : c.toNat ≠ a.toNat := fun e => h (BitVec.eq_of_toNat_eq e)
  unfold readWord
  rw [readByte_writeWord_ne _ _ _ (by omega) (by omega), readByte_writeWord_ne _ _ _ (by omega) (by omega)]

/-! ### Dwords -/

/-- Bit 0 of an address that was cleared is 0. -/
theorem clearBit0_toNat (a : Addr) : (clearBit0 a).toNat = a.toNat / 2 * 2 := by
  have h : clearBit0 a = (a >>> 1) <<< 1 := by
    ext i hi
    have hmask : (0xFFFFFFFE#32)[i] = decide (i ≠ 0) := by
      have hall : ∀ j : Fin 32, (0xFFFFFFFE#32).getLsbD j.val = decide (j.val ≠ 0) := by decide
      simpa only [BitVec.getLsbD_eq_getElem hi] using hall ⟨i, hi⟩
    show (a &&& 0xFFFFFFFE#32)[i] = _
    rw [BitVec.getElem_and, hmask]
    rcases Nat.eq_zero_or_pos i with rfl | hpos
    · simp
    · have hnot : ¬ i < 1 := by omega
      have hne : i ≠ 0 := by omega
      simp [hnot, hne, BitVec.getElem_shiftLeft, BitVec.getElem_ushiftRight, show 1 + (i - 1) = i by omega,
        BitVec.getLsbD_eq_getElem, hi]
  have ha := a.isLt
  rw [h, BitVec.toNat_shiftLeft, BitVec.toNat_ushiftRight, Nat.shiftRight_eq_div_pow, Nat.shiftLeft_eq]
  omega

/-- The second word of a dword never wraps (20_memory.md R85). -/
theorem clearBit0_succ_toNat (a : Addr) : (clearBit0 a + 1).toNat = a.toNat / 2 * 2 + 1 := by
  have ha := a.isLt
  rw [BitVec.toNat_add, clearBit0_toNat]
  show (a.toNat / 2 * 2 + 1) % 2 ^ 32 = _
  omega

/-- The two words of a dword are different words. -/
theorem clearBit0_succ_ne (a : Addr) : clearBit0 a + 1 ≠ clearBit0 a := by
  intro e
  have := congrArg BitVec.toNat e
  rw [clearBit0_succ_toNat, clearBit0_toNat] at this
  omega

/-- Clearing bit 0 twice is clearing it once. -/
@[simp] theorem clearBit0_clearBit0 (a : Addr) : clearBit0 (clearBit0 a) = clearBit0 a := by
  apply BitVec.eq_of_toNat_eq
  rw [clearBit0_toNat, clearBit0_toNat]
  omega

/-- A 32-bit read is the two words, the low half at the even address (20_memory.md R85). -/
theorem readDword_eq (m : Memory) (a : Addr) :
    readDword m a = readWord m (clearBit0 a + 1) ++ readWord m (clearBit0 a) := rfl

/-- A 32-bit write is two word writes, the low half at the even address (20_memory.md R87). -/
theorem writeDword_eq (m : Memory) (a : Addr) (v : Dword) :
    writeDword m a v =
      writeWord (writeWord m (clearBit0 a) (v.extractLsb' 0 16)) (clearBit0 a + 1) (v.extractLsb' 16 16) := rfl

/-- A dword write keeps the canonical form. -/
theorem writeDword_wf {m : Memory} (hm : m.wf) (a : Addr) (v : Dword) : (writeDword m a v).wf :=
  writeWord_wf (writeWord_wf hm _ _) _ _

/-- The two halves of a dword put the dword together again. -/
theorem dword_of_words (v : Dword) : v.extractLsb' 16 16 ++ v.extractLsb' 0 16 = v := by
  ext i hi
  simp only [BitVec.getElem_append, BitVec.getElem_extractLsb']
  split
  · simp [BitVec.getLsbD_eq_getElem, hi]
  · rename_i h
    have : 16 + (i - 16) = i := by omega
    simp [this, BitVec.getLsbD_eq_getElem, hi]

/-- The low word of a stored dword (20_memory.md R87, R91). -/
theorem readWord_writeDword_low {m : Memory} (hm : m.wf) (a : Addr) (v : Dword) :
    readWord (writeDword m a v) (clearBit0 a) = v.extractLsb' 0 16 := by
  rw [writeDword_eq, readWord_writeWord_ne _ _ (clearBit0_succ_ne a).symm, readWord_writeWord_same hm]

/-- The high word of a stored dword (20_memory.md R87, R91). -/
theorem readWord_writeDword_high {m : Memory} (hm : m.wf) (a : Addr) (v : Dword) :
    readWord (writeDword m a v) (clearBit0 a + 1) = v.extractLsb' 16 16 := by
  rw [writeDword_eq, readWord_writeWord_same (writeWord_wf hm _ _)]

/-- A dword reads back as written (20_memory.md R85, R87). -/
theorem readDword_writeDword_same {m : Memory} (hm : m.wf) (a : Addr) (v : Dword) :
    readDword (writeDword m a v) a = v := by
  rw [readDword_eq, readWord_writeDword_low hm, readWord_writeDword_high hm, dword_of_words]

/-- A dword write leaves every byte of the other words alone (20_memory.md R87). -/
theorem readByte_writeDword_ne (m : Memory) (a : Addr) (v : Dword) {k : Nat}
    (h : ∀ c ∈ dwordAddrs a, k ≠ 2 * c.toNat ∧ k ≠ 2 * c.toNat + 1) :
    readByte (writeDword m a v) k = readByte m k := by
  have h0 := h (clearBit0 a) (by simp [dwordAddrs])
  have h1 := h (clearBit0 a + 1) (by simp [dwordAddrs])
  rw [writeDword_eq, readByte_writeWord_ne _ _ _ h1.1 h1.2, readByte_writeWord_ne _ _ _ h0.1 h0.2]

end Sys2Proof.Machine
end

