-- ==== Sys2Proof/Laws/Arith.lean ====
section
/-! SUPPORT. What the functions of Machine/Flags.lean and Machine/Operands.lean compute, said bit by bit or as
integers. -/

namespace Sys2Proof.Machine

/-! ### Immediates -/

/-- The zero-extended class (40_arith_addsub_logic.md R151). -/
theorem unsignedImm_eq (imm16 : BitVec 16) (ul : Bool) :
    unsignedImm imm16 ul = if ul then imm16 ++ 0#16 else imm16.zeroExtend 32 := by cases ul <;> rfl

/-- The sign-extended class (40_arith_addsub_logic.md R151). -/
theorem signedImm_eq (imm16 : BitVec 16) (ul : Bool) :
    signedImm imm16 ul = if ul then imm16 ++ 0#16 else imm16.signExtend 32 := by cases ul <;> rfl

/-! ### Add and subtract -/

/-- The result of a subtraction (40_arith_addsub_logic.md R154). -/
theorem subB_result (a b : Dword) (c : Bool) : (subB a b c).1 = a - b - BitVec.ofNat 32 c.toNat := by
  apply BitVec.eq_of_toNat_eq
  have ha := a.isLt
  have hb := b.isLt
  have hc := c.toNat_lt
  simp only [subB, BitVec.toNat_ofInt, BitVec.toNat_sub, BitVec.toNat_ofNat]
  omega

/-- The bit a subtraction saves is the borrow (40_arith_addsub_logic.md R154). -/
theorem subB_borrow (a b : Dword) (c : Bool) : (subB a b c).2 = decide (a.toNat < b.toNat + c.toNat) := by
  simp [subB, Config.subCarryIsBorrow]

/-! ### Shifts -/

/-- `ShL` bit by bit (41_arith_shift.md R201). -/
theorem shL_bit (a : Dword) (n k : Nat) (hk : k < 32) :
    (shL a n).getLsbD k = (decide (n ≤ k) && a.getLsbD (k - n)) := by
  simp only [shL]
  split
  · have : ¬ n ≤ k := by omega
    simp [this]
  · rw [BitVec.getLsbD_shiftLeft]
    by_cases h : n ≤ k
    · simp [h, hk, Nat.not_lt.mpr h]
    · simp [h, hk, Nat.lt_of_not_le h]

/-- `ShR` bit by bit (41_arith_shift.md R201). -/
theorem shR_bit (a : Dword) (n k : Nat) : (shR a n).getLsbD k = a.getLsbD (k + n) := by
  simp only [shR]
  split
  · rw [BitVec.getLsbD_of_ge a (k + n) (by omega)]
    simp
  · rw [BitVec.getLsbD_ushiftRight, Nat.add_comm]

/-- `ShAR` bit by bit (41_arith_shift.md R201). -/
theorem shAR_bit (a : Dword) (n k : Nat) (hk : k < 32) :
    (shAR a n).getLsbD k = a.getLsbD (min (k + n) 31) := by
  have hm : a.msb = a.getLsbD 31 := rfl
  simp only [shAR]
  split
  · rw [show min (k + n) 31 = 31 by omega, ← hm]
    cases a.msb
    · simp
    · have : ∀ j : Fin 32, (0xFFFFFFFF#32).getLsbD j.val = true := by decide
      exact this ⟨k, hk⟩
  · rw [BitVec.getLsbD_sshiftRight]
    have hk' : ¬ 32 ≤ k := by omega
    by_cases h : n + k < 32
    · rw [show min (k + n) 31 = n + k by omega]
      simp [h, hk']
    · rw [show min (k + n) 31 = 31 by omega]
      simp [h, hk', hm]

/-- `ShLC` bit by bit, by an amount of 0 to 32 (41_arith_shift.md R202). -/
theorem shLC_bits (a : Dword) (n : Nat) (c : Bool) (h : n ≤ 32) :
    ∃ v, shLC a n c = some (v, if n = 0 then c else a.getLsbD (32 - n)) ∧
      ∀ k < 32, v.getLsbD k = if k + 1 = n then c else (decide (n ≤ k) && a.getLsbD (k - n)) := by
  rcases Nat.eq_zero_or_pos n with rfl | hpos
  · exact ⟨a, by simp [shLC], fun k hk => by simp⟩
  · have h0 : n ≠ 0 := by omega
    refine ⟨_, by simp only [shLC, h0, h, if_true, if_false]; rfl, fun k hk => ?_⟩
    have hlow : a.toNat * 2 ^ n % 2 ^ 32 = (a.toNat % 2 ^ (32 - n)) * 2 ^ n := by
      rw [← Nat.mul_mod_mul_right, ← Nat.pow_add, show 32 - n + n = 32 by omega]
    have hc : c.toNat * 2 ^ (n - 1) < 2 ^ n := by
      have : 2 ^ (n - 1) < 2 ^ n := Nat.pow_lt_pow_right (by omega) (by omega)
      cases c
      · simp
      · simpa using this
    have hor : a.toNat * 2 ^ n % 2 ^ 32 + c.toNat * 2 ^ (n - 1) =
        (a.toNat % 2 ^ (32 - n)) <<< n ||| c.toNat <<< (n - 1) := by
      rw [hlow, Nat.shiftLeft_eq c.toNat, ← Nat.shiftLeft_add_eq_or_of_lt hc, Nat.shiftLeft_eq]
    rw [hor, BitVec.getLsbD_ofNat, Nat.testBit_or, Nat.testBit_shiftLeft, Nat.testBit_shiftLeft,
      Nat.testBit_mod_two_pow]
    by_cases hk1 : k + 1 = n
    · have hn : ¬ n ≤ k := by omega
      have hn' : n - 1 ≤ k := by omega
      have hz : k - (n - 1) = 0 := by omega
      simp only [hk1, hk, hn, hn', hz, decide_true, decide_false, Bool.true_and, Bool.false_and, Bool.false_or,
        if_true]
      cases c <;> rfl
    · by_cases hk2 : n ≤ k
      · have hz : k - (n - 1) = k - n + 1 := by omega
        have hlt : k - n < 32 - n := by omega
        have hbit : c.toNat.testBit (k - n + 1) = false := by cases c <;> simp [Nat.testBit_succ]
        simp [hk1, hk, hk2, hz, hlt, hbit, BitVec.getLsbD]
      · have hn : ¬ n - 1 ≤ k := by omega
        simp [hk1, hk2, hn]

/-- `ShRC` bit by bit, by an amount of 0 to 32 (41_arith_shift.md R202). -/
theorem shRC_bits (a : Dword) (n : Nat) (c : Bool) (h : n ≤ 32) :
    ∃ v, shRC a n c = some (v, if n = 0 then c else a.getLsbD (n - 1)) ∧
      ∀ k < 32, v.getLsbD k = if k + n = 32 then c else a.getLsbD (k + n) := by
  rcases Nat.eq_zero_or_pos n with rfl | hpos
  · exact ⟨a, by simp [shRC], fun k hk => by simp [show k ≠ 32 by omega]⟩
  · have h0 : n ≠ 0 := by omega
    refine ⟨_, by simp only [shRC, h0, h, if_true, if_false]; rfl, fun k hk => ?_⟩
    have hlt : a.toNat / 2 ^ n < 2 ^ (32 - n) := by
      rw [Nat.div_lt_iff_lt_mul (by positivity), ← Nat.pow_add, show 32 - n + n = 32 by omega]
      exact a.isLt
    have hor : a.toNat / 2 ^ n + c.toNat * 2 ^ (32 - n) = c.toNat <<< (32 - n) ||| a.toNat >>> n := by
      rw [Nat.shiftRight_eq_div_pow, ← Nat.shiftLeft_add_eq_or_of_lt hlt, Nat.shiftLeft_eq, Nat.add_comm]
    rw [hor, BitVec.getLsbD_ofNat, Nat.testBit_or, Nat.testBit_shiftLeft, Nat.testBit_shiftRight]
    have hadd : n + k = k + n := by omega
    by_cases hk1 : k + n = 32
    · have hge : a.toNat.testBit (k + n) = false := BitVec.getLsbD_of_ge a (k + n) (by omega)
      have hle : 32 - n ≤ k := by omega
      have hz : k - (32 - n) = 0 := by omega
      simp only [hk, hk1, hadd, hle, hz, decide_true, Bool.true_and, if_true]
      rw [hk1] at hge
      rw [hge]
      cases c <;> rfl
    · by_cases hk2 : 32 - n ≤ k
      · have hz : k - (32 - n) = k - (32 - n) - 1 + 1 := by omega
        have hbit : c.toNat.testBit (k - (32 - n)) = false := by
          rw [hz]
          cases c <;> simp [Nat.testBit_succ]
        simp [hk, hk1, hk2, hbit, hadd, BitVec.getLsbD]
      · simp [hk, hk1, hk2, hadd, BitVec.getLsbD]

/-- Only an amount above 32 leaves a carry shift open (41_arith_shift.md R202). -/
theorem shLC_open {n : Nat} (a : Dword) (c : Bool) (h : 32 < n) : shLC a n c = none := by
  simp [shLC, show n ≠ 0 by omega, show ¬ n ≤ 32 by omega]

/-- Only an amount above 32 leaves a carry shift open (41_arith_shift.md R202). -/
theorem shRC_open {n : Nat} (a : Dword) (c : Bool) (h : 32 < n) : shRC a n c = none := by
  simp [shRC, show n ≠ 0 by omega, show ¬ n ≤ 32 by omega]

/-! ### Multiply and divide -/

/-- A number below 2^64 is its two dwords. -/
theorem dwords_of_nat (q : Nat) (h : q < 2 ^ 64) :
    ((BitVec.ofNat 64 q).extractLsb' 32 32).toNat * 2 ^ 32 + ((BitVec.ofNat 64 q).extractLsb' 0 32).toNat = q := by
  simp only [BitVec.extractLsb'_toNat, BitVec.toNat_ofNat, Nat.shiftRight_eq_div_pow]
  omega

/-- `MulU` is the 64-bit product (42_arith_muldiv.md R231). -/
theorem mulU_product (a b : Dword) : (mulU a b).2.toNat * 2 ^ 32 + (mulU a b).1.toNat = a.toNat * b.toNat := by
  have h : a.toNat * b.toNat < 2 ^ 32 * 2 ^ 32 := Nat.mul_lt_mul'' a.isLt b.isLt
  exact dwords_of_nat _ (by omega)

/-- `MulS` is the product modulo 2^32 (42_arith_muldiv.md R232). -/
theorem mulS_eq_mul (a b : Dword) : mulS a b = a * b := by
  rw [mulS, BitVec.ofInt_mul, BitVec.ofInt_toInt, BitVec.ofInt_toInt]

/-- `MulF` is the product divided by 2^16, rounded down, modulo 2^32 (42_arith_muldiv.md R233). -/
theorem mulF_eq_fdiv (a b : Dword) : mulF a b = BitVec.ofInt 32 ((a.toInt * b.toInt).fdiv (2 ^ 16)) := by
  apply BitVec.eq_of_toNat_eq
  rw [Int.fdiv_eq_ediv_of_nonneg _ (by norm_num)]
  simp only [mulF, BitVec.extractLsb'_toNat, BitVec.toNat_ofInt, Nat.shiftRight_eq_div_pow]
  generalize a.toInt * b.toInt = q
  omega

/-- `DivU` is the quotient rounded down (42_arith_muldiv.md R234). -/
theorem divU_quotient (m a b : Dword) :
    (divU m a b).2.toNat * 2 ^ 32 + (divU m a b).1.toNat = (m.toNat * 2 ^ 32 + a.toNat) / b.toNat := by
  have h : (m.toNat * 2 ^ 32 + a.toNat) / b.toNat ≤ m.toNat * 2 ^ 32 + a.toNat := Nat.div_le_self _ _
  have hm := m.isLt
  have ha := a.isLt
  exact dwords_of_nat _ (by omega)

/-! ### Comparisons -/

/-- `Eq` decides equality (43_predicate.md R271). -/
@[simp] theorem cmpEq_iff (a b : Dword) : cmpEq a b = true ↔ a = b := by simp [cmpEq]

/-- `Lt` decides the order of the values (43_predicate.md R271). -/
@[simp] theorem cmpLt_iff (a b : Dword) :
    cmpLt a b = true ↔ valOf Config.cmpSigned a < valOf Config.cmpSigned b := by simp [cmpLt]

/-- `Gt` decides the order of the values (43_predicate.md R271). -/
@[simp] theorem cmpGt_iff (a b : Dword) :
    cmpGt a b = true ↔ valOf Config.cmpSigned b < valOf Config.cmpSigned a := by simp [cmpGt]

/-! ### Targets -/

/-- Clearing bit 0 as arithmetic modulo 2^32 (10_state.md R41). -/
theorem clearBit0_ofInt (x : Int) : clearBit0 (BitVec.ofInt 32 x) = BitVec.ofInt 32 (2 * (x / 2)) := by
  apply BitVec.eq_of_toNat_eq
  rw [clearBit0_toNat]
  simp only [BitVec.toNat_ofInt]
  omega

/-- The doubled offset as an integer (30_encoding.md R125). -/
theorem doubledOffset_eq (imm17 : BitVec 17) : doubledOffset imm17 = BitVec.ofInt 32 (2 * imm17.toInt) := by
  rw [doubledOffset, BitVec.ofInt_mul]
  rfl

end Sys2Proof.Machine
end

