-- ==== Sys2Proof/Laws/Encoding.lean ====
section
/-! SUPPORT. The six formats: the number each encoder writes, and the fields read back from it (30_encoding.md R111 to
R116). -/

namespace Sys2Proof

/-! ### Concatenation as arithmetic -/

/-- The number of a concatenation. -/
theorem append_toNat {n m : Nat} (x : BitVec n) (y : BitVec m) : (x ++ y).toNat = x.toNat * 2 ^ m + y.toNat := by
  rw [BitVec.toNat_append, ← Nat.shiftLeft_add_eq_or_of_lt y.isLt, Nat.shiftLeft_eq]

/-- A bit is known by its number. -/
theorem bool_eq_of_toNat {a b : Bool} (h : a.toNat = b.toNat) : a = b := by
  cases a <;> cases b <;> simp_all

/-! ### The number of an encoded word -/

section toNat
variable (op : Opcode) (p dstp : Pred) (dst rs1 rs2 : Reg) (ul : Bool) (imm16 : BitVec 16) (imm17 : BitVec 17)

/-- Format R (30_encoding.md R111). -/
theorem encR_toNat : (encR op p dst rs1 rs2).toNat =
    op.toNat + 2 ^ 8 * p.val + 2 ^ 11 * dst.val + 2 ^ 18 * rs1.val + 2 ^ 25 * rs2.val := by
  refine (append_toNat (n := 11 + 6 + 1 + 6 + 1 + 6 + 3) _ op).trans ?_
  simp only [append_toNat, BitVec.toNat_ofFin, BitVec.toNat_zero]
  omega

/-- Format I (30_encoding.md R112). -/
theorem encI_toNat : (encI op p dst rs1 ul imm16).toNat =
    op.toNat + 2 ^ 8 * p.val + 2 ^ 11 * dst.val + 2 ^ 18 * rs1.val + 2 ^ 25 * ul.toNat + 2 ^ 26 * imm16.toNat := by
  refine (append_toNat (n := 16 + 1 + 1 + 6 + 1 + 6 + 3) _ op).trans ?_
  simp only [append_toNat, BitVec.toNat_ofFin, BitVec.toNat_zero, BitVec.toNat_ofBool]
  omega

/-- Format P (30_encoding.md R113). -/
theorem encP_toNat : (encP op p dstp rs1 rs2).toNat =
    op.toNat + 2 ^ 8 * p.val + 2 ^ 11 * dstp.val + 2 ^ 18 * rs1.val + 2 ^ 25 * rs2.val := by
  refine (append_toNat (n := 11 + 6 + 1 + 6 + 4 + 3 + 3) _ op).trans ?_
  simp only [append_toNat, BitVec.toNat_ofFin, BitVec.toNat_zero]
  omega

/-- Format M (30_encoding.md R114). -/
theorem encM_toNat : (encM op p dst rs1 imm17).toNat =
    op.toNat + 2 ^ 8 * p.val + 2 ^ 11 * dst.val + 2 ^ 18 * rs1.val + 2 ^ 25 * imm17.toNat := by
  refine (append_toNat (n := 17 + 1 + 6 + 1 + 6 + 3) _ op).trans ?_
  simp only [append_toNat, BitVec.toNat_ofFin, BitVec.toNat_zero]
  omega

/-- Format B (30_encoding.md R115). -/
theorem encB_toNat : (encB op p rs1 rs2 imm17).toNat =
    op.toNat + 2 ^ 8 * p.val + 2 ^ 11 * rs1.val + 2 ^ 18 * rs2.val + 2 ^ 25 * imm17.toNat := by
  refine (append_toNat (n := 17 + 1 + 6 + 1 + 6 + 3) _ op).trans ?_
  simp only [append_toNat, BitVec.toNat_ofFin, BitVec.toNat_zero]
  omega

/-- Format J (30_encoding.md R116). -/
theorem encJ_toNat : (encJ op p rs1 imm17).toNat =
    op.toNat + 2 ^ 8 * p.val + 2 ^ 11 * rs1.val + 2 ^ 25 * imm17.toNat := by
  refine (append_toNat (n := 17 + 8 + 6 + 3) _ op).trans ?_
  simp only [append_toNat, BitVec.toNat_ofFin, BitVec.toNat_zero]
  omega

end toNat

/-! ### The fields of a word, as numbers -/

section fields
variable (w : InstrWord)

theorem opcodeField_toNat : (opcodeField w).toNat = w.toNat % 2 ^ 8 := by
  simp [opcodeField]

theorem predField_val : (predField w).val = w.toNat / 2 ^ 8 % 2 ^ 3 := by
  simp [predField, Nat.shiftRight_eq_div_pow]

theorem regField11_val : (regField11 w).val = w.toNat / 2 ^ 11 % 2 ^ 6 := by
  simp [regField11, Nat.shiftRight_eq_div_pow]

theorem regField18_val : (regField18 w).val = w.toNat / 2 ^ 18 % 2 ^ 6 := by
  simp [regField18, Nat.shiftRight_eq_div_pow]

theorem regField25_val : (regField25 w).val = w.toNat / 2 ^ 25 % 2 ^ 6 := by
  simp [regField25, Nat.shiftRight_eq_div_pow]

theorem dstpField_val : (dstpField w).val = w.toNat / 2 ^ 11 % 2 ^ 3 := by
  simp [dstpField, Nat.shiftRight_eq_div_pow]

theorem ulField_toNat : (ulField w).toNat = w.toNat / 2 ^ 25 % 2 := by
  simp only [ulField, BitVec.getLsbD, Nat.testBit_eq_decide_div_mod_eq]
  rcases Nat.mod_two_eq_zero_or_one (w.toNat / 2 ^ 25) with h | h <;> rw [h] <;> rfl

theorem imm16Field_toNat : (imm16Field w).toNat = w.toNat / 2 ^ 26 % 2 ^ 16 := by
  simp [imm16Field, Nat.shiftRight_eq_div_pow]

theorem imm17Field_toNat : (imm17Field w).toNat = w.toNat / 2 ^ 25 % 2 ^ 17 := by
  simp [imm17Field, Nat.shiftRight_eq_div_pow]

end fields

/-! ### The fields read back from an encoded word -/

section readBack
variable (op : Opcode) (p dstp : Pred) (dst rs1 rs2 : Reg) (ul : Bool) (imm16 : BitVec 16) (imm17 : BitVec 17)

/-- Format R (30_encoding.md R111). -/
theorem encR_fields :
    opcodeField (encR op p dst rs1 rs2) = op ∧ predField (encR op p dst rs1 rs2) = p ∧
      regField11 (encR op p dst rs1 rs2) = dst ∧ regField18 (encR op p dst rs1 rs2) = rs1 ∧
      regField25 (encR op p dst rs1 rs2) = rs2 := by
  have hop := op.isLt
  have hn := encR_toNat op p dst rs1 rs2
  refine ⟨BitVec.eq_of_toNat_eq ?_, Fin.ext ?_, Fin.ext ?_, Fin.ext ?_, Fin.ext ?_⟩
  · rw [opcodeField_toNat]; omega
  · rw [predField_val]; omega
  · rw [regField11_val]; omega
  · rw [regField18_val]; omega
  · rw [regField25_val]; omega

/-- Format I (30_encoding.md R112). -/
theorem encI_fields :
    opcodeField (encI op p dst rs1 ul imm16) = op ∧ predField (encI op p dst rs1 ul imm16) = p ∧
      regField11 (encI op p dst rs1 ul imm16) = dst ∧ regField18 (encI op p dst rs1 ul imm16) = rs1 ∧
      ulField (encI op p dst rs1 ul imm16) = ul ∧ imm16Field (encI op p dst rs1 ul imm16) = imm16 := by
  have hop := op.isLt
  have hi := imm16.isLt
  have hu := ul.toNat_lt
  have hn := encI_toNat op p dst rs1 ul imm16
  refine ⟨BitVec.eq_of_toNat_eq ?_, Fin.ext ?_, Fin.ext ?_, Fin.ext ?_, bool_eq_of_toNat ?_, BitVec.eq_of_toNat_eq ?_⟩
  · rw [opcodeField_toNat]; omega
  · rw [predField_val]; omega
  · rw [regField11_val]; omega
  · rw [regField18_val]; omega
  · rw [ulField_toNat]; omega
  · rw [imm16Field_toNat]; omega

/-- Format P (30_encoding.md R113). -/
theorem encP_fields :
    opcodeField (encP op p dstp rs1 rs2) = op ∧ predField (encP op p dstp rs1 rs2) = p ∧
      dstpField (encP op p dstp rs1 rs2) = dstp ∧ regField18 (encP op p dstp rs1 rs2) = rs1 ∧
      regField25 (encP op p dstp rs1 rs2) = rs2 := by
  have hop := op.isLt
  have hn := encP_toNat op p dstp rs1 rs2
  refine ⟨BitVec.eq_of_toNat_eq ?_, Fin.ext ?_, Fin.ext ?_, Fin.ext ?_, Fin.ext ?_⟩
  · rw [opcodeField_toNat]; omega
  · rw [predField_val]; omega
  · rw [dstpField_val]; omega
  · rw [regField18_val]; omega
  · rw [regField25_val]; omega

/-- Format M (30_encoding.md R114). -/
theorem encM_fields :
    opcodeField (encM op p dst rs1 imm17) = op ∧ predField (encM op p dst rs1 imm17) = p ∧
      regField11 (encM op p dst rs1 imm17) = dst ∧ regField18 (encM op p dst rs1 imm17) = rs1 ∧
      imm17Field (encM op p dst rs1 imm17) = imm17 := by
  have hop := op.isLt
  have hi := imm17.isLt
  have hn := encM_toNat op p dst rs1 imm17
  refine ⟨BitVec.eq_of_toNat_eq ?_, Fin.ext ?_, Fin.ext ?_, Fin.ext ?_, BitVec.eq_of_toNat_eq ?_⟩
  · rw [opcodeField_toNat]; omega
  · rw [predField_val]; omega
  · rw [regField11_val]; omega
  · rw [regField18_val]; omega
  · rw [imm17Field_toNat]; omega

/-- Format B (30_encoding.md R115). -/
theorem encB_fields :
    opcodeField (encB op p rs1 rs2 imm17) = op ∧ predField (encB op p rs1 rs2 imm17) = p ∧
      regField11 (encB op p rs1 rs2 imm17) = rs1 ∧ regField18 (encB op p rs1 rs2 imm17) = rs2 ∧
      imm17Field (encB op p rs1 rs2 imm17) = imm17 := by
  have hop := op.isLt
  have hi := imm17.isLt
  have hn := encB_toNat op p rs1 rs2 imm17
  refine ⟨BitVec.eq_of_toNat_eq ?_, Fin.ext ?_, Fin.ext ?_, Fin.ext ?_, BitVec.eq_of_toNat_eq ?_⟩
  · rw [opcodeField_toNat]; omega
  · rw [predField_val]; omega
  · rw [regField11_val]; omega
  · rw [regField18_val]; omega
  · rw [imm17Field_toNat]; omega

/-- Format J (30_encoding.md R116). -/
theorem encJ_fields :
    opcodeField (encJ op p rs1 imm17) = op ∧ predField (encJ op p rs1 imm17) = p ∧
      regField11 (encJ op p rs1 imm17) = rs1 ∧ imm17Field (encJ op p rs1 imm17) = imm17 := by
  have hop := op.isLt
  have hi := imm17.isLt
  have hn := encJ_toNat op p rs1 imm17
  refine ⟨BitVec.eq_of_toNat_eq ?_, Fin.ext ?_, Fin.ext ?_, BitVec.eq_of_toNat_eq ?_⟩
  · rw [opcodeField_toNat]; omega
  · rw [predField_val]; omega
  · rw [regField11_val]; omega
  · rw [imm17Field_toNat]; omega

end readBack

/-! ### The bits an encoder sets (30_encoding.md R117, R123) -/

/-- A word keeps its value under a mask that covers its set bits. -/
theorem and_mask_eq {w m : InstrWord} (h : ∀ i, i < 42 → m.getLsbD i = false → w.toNat / 2 ^ i % 2 = 0) :
    w &&& m = w := by
  apply BitVec.eq_of_getLsbD_eq
  intro i hi
  rw [BitVec.getLsbD_and]
  cases hm : m.getLsbD i
  · have := h i hi hm
    simp [BitVec.getLsbD, Nat.testBit_eq_decide_div_mod_eq, this]
  · simp

section used
variable (op : Opcode) (p dstp : Pred) (dst rs1 rs2 : Reg) (ul : Bool) (imm16 : BitVec 16) (imm17 : BitVec 17)

/-- A format R word sets only bits the instruction reads. -/
theorem encR_used : encR op p dst rs1 rs2 &&& usedR = encR op p dst rs1 rs2 := by
  have hop := op.isLt
  have hn := encR_toNat op p dst rs1 rs2
  refine and_mask_eq fun i hi hm => ?_
  interval_cases i <;> first | (exact absurd hm (by decide)) | omega

/-- A format I word sets only bits the instruction reads. -/
theorem encI_used : encI op p dst rs1 ul imm16 &&& usedI = encI op p dst rs1 ul imm16 := by
  have hop := op.isLt
  have hi := imm16.isLt
  have hu := ul.toNat_lt
  have hn := encI_toNat op p dst rs1 ul imm16
  refine and_mask_eq fun i hi hm => ?_
  interval_cases i <;> first | (exact absurd hm (by decide)) | omega

/-- A format P word sets only bits the instruction reads. -/
theorem encP_used : encP op p dstp rs1 rs2 &&& usedP = encP op p dstp rs1 rs2 := by
  have hop := op.isLt
  have hn := encP_toNat op p dstp rs1 rs2
  refine and_mask_eq fun i hi hm => ?_
  interval_cases i <;> first | (exact absurd hm (by decide)) | omega

/-- A format M word sets only bits the instruction reads. -/
theorem encM_used : encM op p dst rs1 imm17 &&& usedM = encM op p dst rs1 imm17 := by
  have hop := op.isLt
  have hi := imm17.isLt
  have hn := encM_toNat op p dst rs1 imm17
  refine and_mask_eq fun i hi hm => ?_
  interval_cases i <;> first | (exact absurd hm (by decide)) | omega

/-- A format B word sets only bits the instruction reads. -/
theorem encB_used : encB op p rs1 rs2 imm17 &&& usedB = encB op p rs1 rs2 imm17 := by
  have hop := op.isLt
  have hi := imm17.isLt
  have hn := encB_toNat op p rs1 rs2 imm17
  refine and_mask_eq fun i hi hm => ?_
  interval_cases i <;> first | (exact absurd hm (by decide)) | omega

/-- A format J word sets only bits the instruction reads. -/
theorem encJ_used : encJ op p rs1 imm17 &&& usedJ = encJ op p rs1 imm17 := by
  have hop := op.isLt
  have hi := imm17.isLt
  have hn := encJ_toNat op p rs1 imm17
  refine and_mask_eq fun i hi hm => ?_
  interval_cases i <;> first | (exact absurd hm (by decide)) | omega

/-- `nop` sets only bits the instruction reads. -/
theorem encR_none_used : encR op p 0 0 0 &&& usedNone = encR op p 0 0 0 := by
  have hop := op.isLt
  have hn := encR_toNat op p 0 0 0
  have hz : (0 : Reg).val = 0 := rfl
  refine and_mask_eq fun i hi hm => ?_
  interval_cases i <;> first | (exact absurd hm (by decide)) | omega

/-- `iret` sets only bits the instruction reads. -/
theorem encJ_none_used : encJ op p 0 0 &&& usedNone = encJ op p 0 0 := by
  have hop := op.isLt
  have hn := encJ_toNat op p 0 0
  have hz : (0 : Reg).val = 0 := rfl
  have h0 : (0 : BitVec 17).toNat = 0 := rfl
  refine and_mask_eq fun i hi hm => ?_
  interval_cases i <;> first | (exact absurd hm (by decide)) | omega

/-- `set`, `clr` sets only bits the instruction reads. -/
theorem encR_dst_used : encR op p dst 0 0 &&& usedDst = encR op p dst 0 0 := by
  have hop := op.isLt
  have hn := encR_toNat op p dst 0 0
  have hz : (0 : Reg).val = 0 := rfl
  refine and_mask_eq fun i hi hm => ?_
  interval_cases i <;> first | (exact absurd hm (by decide)) | omega

/-- `srr`, `srw` sets only bits the instruction reads. -/
theorem encI_sr_used : encI op p dst 0 false imm16 &&& usedSr = encI op p dst 0 false imm16 := by
  have hop := op.isLt
  have hi := imm16.isLt
  have hn := encI_toNat op p dst 0 false imm16
  have hz : (0 : Reg).val = 0 := rfl
  have hf : false.toNat = 0 := rfl
  refine and_mask_eq fun i hi hm => ?_
  interval_cases i <;> first | (exact absurd hm (by decide)) | omega

/-- `trap` sets only bits the instruction reads. -/
theorem encI_imm16_used : encI op p 0 0 false imm16 &&& usedImm16 = encI op p 0 0 false imm16 := by
  have hop := op.isLt
  have hi := imm16.isLt
  have hn := encI_toNat op p 0 0 false imm16
  have hz : (0 : Reg).val = 0 := rfl
  have hf : false.toNat = 0 := rfl
  refine and_mask_eq fun i hi hm => ?_
  interval_cases i <;> first | (exact absurd hm (by decide)) | omega

/-- `spc`, `spnc`, `spt`, `spf` sets only bits the instruction reads. -/
theorem encP_dstp_used : encP op p dstp 0 0 &&& usedDstp = encP op p dstp 0 0 := by
  have hop := op.isLt
  have hn := encP_toNat op p dstp 0 0
  have hz : (0 : Reg).val = 0 := rfl
  refine and_mask_eq fun i hi hm => ?_
  interval_cases i <;> first | (exact absurd hm (by decide)) | omega

/-- `brc`, `brnc`, `br` sets only bits the instruction reads. -/
theorem encB_imm17_used : encB op p 0 0 imm17 &&& usedImm17 = encB op p 0 0 imm17 := by
  have hop := op.isLt
  have hi := imm17.isLt
  have hn := encB_toNat op p 0 0 imm17
  have hz : (0 : Reg).val = 0 := rfl
  refine and_mask_eq fun i hi hm => ?_
  interval_cases i <;> first | (exact absurd hm (by decide)) | omega

end used

/-! ### An encoder given the fields of a word (30_encoding.md R111 to R117, R123) -/

section fieldsOf
variable (w : InstrWord)

/-- Format R. -/
theorem encR_of_fields :
    encR (opcodeField w) (predField w) (regField11 w) (regField18 w) (regField25 w) = w &&& usedR := by
  have e : encR (opcodeField w) (predField w) (regField11 w) (regField18 w) (regField25 w) =
      0#11 ++ w.extractLsb' 25 6 ++ 0#1 ++ w.extractLsb' 18 6 ++ 0#1 ++ w.extractLsb' 11 6 ++ w.extractLsb' 8 3 ++
      w.extractLsb' 0 8 := rfl
  rw [e]
  clear e
  apply BitVec.eq_of_getLsbD_eq
  intro k hk
  simp only [BitVec.getLsbD_and, BitVec.getLsbD_append, BitVec.getLsbD_extractLsb', BitVec.getLsbD_zero]
  interval_cases k <;> simp [usedR]

/-- Format I. -/
theorem encI_of_fields :
    encI (opcodeField w) (predField w) (regField11 w) (regField18 w) (ulField w) (imm16Field w) = w &&& usedI := by
  have e : encI (opcodeField w) (predField w) (regField11 w) (regField18 w) (ulField w) (imm16Field w) =
      w.extractLsb' 26 16 ++ BitVec.ofBool (w.getLsbD 25) ++ 0#1 ++ w.extractLsb' 18 6 ++ 0#1 ++ w.extractLsb' 11 6 ++
      w.extractLsb' 8 3 ++ w.extractLsb' 0 8 := rfl
  rw [e]
  clear e
  apply BitVec.eq_of_getLsbD_eq
  intro k hk
  simp only [BitVec.getLsbD_and, BitVec.getLsbD_append, BitVec.getLsbD_extractLsb', BitVec.getLsbD_zero]
  interval_cases k <;> simp [usedI]

/-- Format P. -/
theorem encP_of_fields :
    encP (opcodeField w) (predField w) (dstpField w) (regField18 w) (regField25 w) = w &&& usedP := by
  have e : encP (opcodeField w) (predField w) (dstpField w) (regField18 w) (regField25 w) =
      0#11 ++ w.extractLsb' 25 6 ++ 0#1 ++ w.extractLsb' 18 6 ++ 0#4 ++ w.extractLsb' 11 3 ++ w.extractLsb' 8 3 ++
      w.extractLsb' 0 8 := rfl
  rw [e]
  clear e
  apply BitVec.eq_of_getLsbD_eq
  intro k hk
  simp only [BitVec.getLsbD_and, BitVec.getLsbD_append, BitVec.getLsbD_extractLsb', BitVec.getLsbD_zero]
  interval_cases k <;> simp [usedP]

/-- Format M. -/
theorem encM_of_fields :
    encM (opcodeField w) (predField w) (regField11 w) (regField18 w) (imm17Field w) = w &&& usedM := by
  have e : encM (opcodeField w) (predField w) (regField11 w) (regField18 w) (imm17Field w) =
      w.extractLsb' 25 17 ++ 0#1 ++ w.extractLsb' 18 6 ++ 0#1 ++ w.extractLsb' 11 6 ++ w.extractLsb' 8 3 ++
      w.extractLsb' 0 8 := rfl
  rw [e]
  clear e
  apply BitVec.eq_of_getLsbD_eq
  intro k hk
  simp only [BitVec.getLsbD_and, BitVec.getLsbD_append, BitVec.getLsbD_extractLsb', BitVec.getLsbD_zero]
  interval_cases k <;> simp [usedM]

/-- Format B. -/
theorem encB_of_fields :
    encB (opcodeField w) (predField w) (regField11 w) (regField18 w) (imm17Field w) = w &&& usedB := by
  have e : encB (opcodeField w) (predField w) (regField11 w) (regField18 w) (imm17Field w) =
      w.extractLsb' 25 17 ++ 0#1 ++ w.extractLsb' 18 6 ++ 0#1 ++ w.extractLsb' 11 6 ++ w.extractLsb' 8 3 ++
      w.extractLsb' 0 8 := rfl
  rw [e]
  clear e
  apply BitVec.eq_of_getLsbD_eq
  intro k hk
  simp only [BitVec.getLsbD_and, BitVec.getLsbD_append, BitVec.getLsbD_extractLsb', BitVec.getLsbD_zero]
  interval_cases k <;> simp [usedB]

/-- Format J. -/
theorem encJ_of_fields :
    encJ (opcodeField w) (predField w) (regField11 w) (imm17Field w) = w &&& usedJ := by
  have e : encJ (opcodeField w) (predField w) (regField11 w) (imm17Field w) =
      w.extractLsb' 25 17 ++ 0#8 ++ w.extractLsb' 11 6 ++ w.extractLsb' 8 3 ++ w.extractLsb' 0 8 := rfl
  rw [e]
  clear e
  apply BitVec.eq_of_getLsbD_eq
  intro k hk
  simp only [BitVec.getLsbD_and, BitVec.getLsbD_append, BitVec.getLsbD_extractLsb', BitVec.getLsbD_zero]
  interval_cases k <;> simp [usedJ]

/-- `nop`. -/
theorem encR_none_of_fields :
    encR (opcodeField w) (predField w) 0 0 0 = w &&& usedNone := by
  have e : encR (opcodeField w) (predField w) 0 0 0 =
      0#11 ++ 0#6 ++ 0#1 ++ 0#6 ++ 0#1 ++ 0#6 ++ w.extractLsb' 8 3 ++ w.extractLsb' 0 8 := rfl
  rw [e]
  clear e
  apply BitVec.eq_of_getLsbD_eq
  intro k hk
  simp only [BitVec.getLsbD_and, BitVec.getLsbD_append, BitVec.getLsbD_extractLsb', BitVec.getLsbD_zero]
  interval_cases k <;> simp [usedNone]

/-- `iret`. -/
theorem encJ_none_of_fields :
    encJ (opcodeField w) (predField w) 0 0 = w &&& usedNone := by
  have e : encJ (opcodeField w) (predField w) 0 0 =
      0#17 ++ 0#8 ++ 0#6 ++ w.extractLsb' 8 3 ++ w.extractLsb' 0 8 := rfl
  rw [e]
  clear e
  apply BitVec.eq_of_getLsbD_eq
  intro k hk
  simp only [BitVec.getLsbD_and, BitVec.getLsbD_append, BitVec.getLsbD_extractLsb', BitVec.getLsbD_zero]
  interval_cases k <;> simp [usedNone]

/-- `set`, `clr`. -/
theorem encR_dst_of_fields :
    encR (opcodeField w) (predField w) (regField11 w) 0 0 = w &&& usedDst := by
  have e : encR (opcodeField w) (predField w) (regField11 w) 0 0 =
      0#11 ++ 0#6 ++ 0#1 ++ 0#6 ++ 0#1 ++ w.extractLsb' 11 6 ++ w.extractLsb' 8 3 ++ w.extractLsb' 0 8 := rfl
  rw [e]
  clear e
  apply BitVec.eq_of_getLsbD_eq
  intro k hk
  simp only [BitVec.getLsbD_and, BitVec.getLsbD_append, BitVec.getLsbD_extractLsb', BitVec.getLsbD_zero]
  interval_cases k <;> simp [usedDst]

/-- `srr`, `srw`. -/
theorem encI_sr_of_fields :
    encI (opcodeField w) (predField w) (regField11 w) 0 false (imm16Field w) = w &&& usedSr := by
  have e : encI (opcodeField w) (predField w) (regField11 w) 0 false (imm16Field w) =
      w.extractLsb' 26 16 ++ 0#1 ++ 0#1 ++ 0#6 ++ 0#1 ++ w.extractLsb' 11 6 ++ w.extractLsb' 8 3 ++ w.extractLsb' 0 8
      := rfl
  rw [e]
  clear e
  apply BitVec.eq_of_getLsbD_eq
  intro k hk
  simp only [BitVec.getLsbD_and, BitVec.getLsbD_append, BitVec.getLsbD_extractLsb', BitVec.getLsbD_zero]
  interval_cases k <;> simp [usedSr]

/-- `trap`. -/
theorem encI_imm16_of_fields :
    encI (opcodeField w) (predField w) 0 0 false (imm16Field w) = w &&& usedImm16 := by
  have e : encI (opcodeField w) (predField w) 0 0 false (imm16Field w) =
      w.extractLsb' 26 16 ++ 0#1 ++ 0#1 ++ 0#6 ++ 0#1 ++ 0#6 ++ w.extractLsb' 8 3 ++ w.extractLsb' 0 8 := rfl
  rw [e]
  clear e
  apply BitVec.eq_of_getLsbD_eq
  intro k hk
  simp only [BitVec.getLsbD_and, BitVec.getLsbD_append, BitVec.getLsbD_extractLsb', BitVec.getLsbD_zero]
  interval_cases k <;> simp [usedImm16]

/-- `spc`, `spnc`, `spt`, `spf`. -/
theorem encP_dstp_of_fields :
    encP (opcodeField w) (predField w) (dstpField w) 0 0 = w &&& usedDstp := by
  have e : encP (opcodeField w) (predField w) (dstpField w) 0 0 =
      0#11 ++ 0#6 ++ 0#1 ++ 0#6 ++ 0#4 ++ w.extractLsb' 11 3 ++ w.extractLsb' 8 3 ++ w.extractLsb' 0 8 := rfl
  rw [e]
  clear e
  apply BitVec.eq_of_getLsbD_eq
  intro k hk
  simp only [BitVec.getLsbD_and, BitVec.getLsbD_append, BitVec.getLsbD_extractLsb', BitVec.getLsbD_zero]
  interval_cases k <;> simp [usedDstp]

/-- `brc`, `brnc`, `br`. -/
theorem encB_imm17_of_fields :
    encB (opcodeField w) (predField w) 0 0 (imm17Field w) = w &&& usedImm17 := by
  have e : encB (opcodeField w) (predField w) 0 0 (imm17Field w) =
      w.extractLsb' 25 17 ++ 0#1 ++ 0#6 ++ 0#1 ++ 0#6 ++ w.extractLsb' 8 3 ++ w.extractLsb' 0 8 := rfl
  rw [e]
  clear e
  apply BitVec.eq_of_getLsbD_eq
  intro k hk
  simp only [BitVec.getLsbD_and, BitVec.getLsbD_append, BitVec.getLsbD_extractLsb', BitVec.getLsbD_zero]
  interval_cases k <;> simp [usedImm17]

end fieldsOf

end Sys2Proof
end

