-- ==== Sys2Proof/Laws/Ops.lean ====
section
/-! SUPPORT. What each shared operation and effect can do, each said once; cite these instead of unfolding the
operations. -/

namespace Sys2Proof.Machine

/-! ### Registers -/

@[simp] theorem State.reg_zero (s : State) : s.reg 0 = 0 := rfl

@[simp] theorem State.pred_zero (s : State) : s.pred 0 = true := rfl

@[simp] theorem State.setReg_zero (s : State) (v : Dword) : s.setReg 0 v = s := rfl

@[simp] theorem State.setPred_zero (s : State) (b : Bool) : s.setPred 0 b = s := rfl

/-- A register reads back as written; `r0` reads 0 (10_state.md R31). -/
theorem State.setReg_reg_same (s : State) (r : Reg) (v : Dword) :
    (s.setReg r v).reg r = if r = 0 then 0 else v := by
  by_cases h : r = 0
  · simp [h]
  · simp [State.reg, State.setReg, h]

/-- A register write leaves every other register alone. -/
theorem State.setReg_reg_ne (s : State) {r k : Reg} (v : Dword) (h : k ≠ r) : (s.setReg r v).reg k = s.reg k := by
  have hv : ¬ r.val = k.val := fun e => h (Fin.ext e.symm)
  by_cases hr : r = 0
  · simp [hr]
  · simp [State.reg, State.setReg, hr, hv]

/-- A predicate reads back as written; `p0` reads True (10_state.md R36). -/
theorem State.setPred_pred_same (s : State) (q : Pred) (b : Bool) :
    (s.setPred q b).pred q = if q = 0 then true else b := by
  by_cases h : q = 0
  · simp [h]
  · simp [State.pred, State.setPred, h]

/-- A predicate write leaves every other predicate alone. -/
theorem State.setPred_pred_ne (s : State) {q k : Pred} (b : Bool) (h : k ≠ q) :
    (s.setPred q b).pred k = s.pred k := by
  have hv : ¬ q.val = k.val := fun e => h (Fin.ext e.symm)
  by_cases hq : q = 0
  · simp [hq]
  · simp [State.pred, State.setPred, hq, hv]

/-- The home slot of `r0` is never written. -/
@[simp] theorem State.setReg_zeroSlot (s : State) (r : Reg) (v : Dword) : (s.setReg r v).regs[0] = s.regs[0] := by
  by_cases hr : r = 0
  · simp [hr]
  · have hv : ¬ r.val = 0 := fun e => hr (Fin.ext e)
    simp [State.setReg, hr, hv]

/-- The home slot of `p0` is never written. -/
@[simp] theorem State.setPred_trueSlot (s : State) (q : Pred) (b : Bool) :
    (s.setPred q b).preds[0] = s.preds[0] := by
  by_cases hq : q = 0
  · simp [hq]
  · have hv : ¬ q.val = 0 := fun e => hq (Fin.ext e)
    simp [State.setPred, hq, hv]

/-! ### The common steps -/

@[simp] theorem retired_next (t : State) : retired (.next t) = .next t.retire := rfl

/-- An instruction whose predicate is True runs its own rule and is counted. -/
theorem guarded_true {p : Pred} {s : State} (h : s.pred p = true) (body : Result) :
    guarded p s body = retired body := by simp [guarded, h]

/-- An instruction whose predicate is False only advances `pc`. -/
theorem guarded_false {p : Pred} {s : State} (h : s.pred p = false) (body : Result) :
    guarded p s body = .next s.advance := by simp [guarded, h, State.skip, Config.instrsCountsSkipped]

/-- Everything a guarded instruction with one effect can do. -/
theorem guarded_next_cases {p : Pred} {s t e : State} (h : guarded p s (.next e) = .next t) :
    (s.pred p = true ∧ t = e.retire) ∨ (s.pred p = false ∧ t = s.advance) := by
  cases hp : s.pred p
  · rw [guarded_false hp] at h
    cases h
    exact .inr ⟨rfl, rfl⟩
  · rw [guarded_true hp] at h
    cases h
    exact .inl ⟨rfl, rfl⟩

@[simp] theorem nextPc_eq (a : Addr) : nextPc a = a + 4 := rfl

/-! ### The platform -/

/-- What answers at an address depends on the memory map alone. -/
theorem State.memoryAt_congr {s t : State} (h : t.memoryMap = s.memoryMap) (a : Addr) :
    t.memoryAt a = s.memoryAt a := by
  rw [State.memoryAt, State.memoryAt, h]

/-- The device at an address depends on the memory map alone. -/
theorem State.deviceAt_congr {s t : State} (h : t.memoryMap = s.memoryMap) (a : Addr) :
    t.deviceAt a = s.deviceAt a := by
  rw [State.deviceAt, State.deviceAt, State.memoryAt_congr h]

/-- The device behind a status register depends on `EXTRA_SR` alone. -/
theorem State.srDevice_congr {s t : State} (h : t.extraSr = s.extraSr) (a : SrAddr) :
    t.srDevice a = s.srDevice a := by
  rw [State.srDevice, State.srDevice, h]

/-- A device answers where the map puts it. -/
theorem State.deviceAt_eq_some {s : State} {a : Addr} {d : DeviceId} :
    s.deviceAt a = some d ↔ s.memoryAt a = .device d := by
  unfold State.deviceAt
  split <;> simp_all

/-- No device answers in main memory. -/
theorem State.deviceAt_of_ram {s : State} {a : Addr} (h : s.memoryAt a = .ram) : s.deviceAt a = none := by
  simp [State.deviceAt, h]

/-- An access goes on where memory or a device answers at every word of it. -/
theorem onMemory_present {s : State} {ws : List Addr} (h : ∀ a ∈ ws, s.memoryAt a ≠ .absent) (k : Result) :
    onMemory s ws k = k := by
  have hf : (ws.find? fun a => decide (s.memoryAt a = .absent)) = none := by simpa [List.find?_eq_none] using h
  simp [onMemory, hf]

/-- An access faults at a word where nothing answers (60_exceptions.md R400; log 15). -/
theorem onMemory_absent {s : State} {ws : List Addr} (h : ∃ a ∈ ws, s.memoryAt a = .absent) :
    ∃ a ∈ ws, s.memoryAt a = .absent ∧ ∀ k, onMemory s ws k = .fault (.nothingAt a) := by
  cases hf : ws.find? fun a => decide (s.memoryAt a = .absent) with
  | none =>
    obtain ⟨a, ha, hs⟩ := h
    exact absurd hs (by simpa using List.find?_eq_none.1 hf a ha)
  | some a =>
    exact ⟨a, List.mem_of_find?_eq_some hf, by simpa using List.find?_some hf, fun k => by simp [onMemory, hf]⟩

/-- An access that goes on had something to answer it at every word. -/
theorem onMemory_next {s t : State} {ws : List Addr} {k : Result} (h : onMemory s ws k = .next t) :
    (∀ a ∈ ws, s.memoryAt a ≠ .absent) ∧ k = .next t := by
  by_cases ha : ∃ a ∈ ws, s.memoryAt a = .absent
  · obtain ⟨a, -, -, hk⟩ := onMemory_absent ha
    rw [hk] at h
    cases h
  · have hp : ∀ a ∈ ws, s.memoryAt a ≠ .absent := fun a hm he => ha ⟨a, hm, he⟩
    exact ⟨hp, (onMemory_present hp k).symm.trans h⟩

section device
variable {s : State} {a c : Addr} {d : DeviceId}

theorem State.loadWord_memory (h : s.deviceAt a = none) : s.loadWord a = readWord s.mem a := by
  simp [State.loadWord, h]

theorem State.afterWord_memory (h : s.deviceAt a = none) : s.afterWord a = s := by
  simp [State.afterWord, State.afterRead, h]

theorem State.storeWord_memory (h : s.deviceAt a = none) (v : Word) :
    s.storeWord a v = s.setMem (writeWord s.mem a v) := by
  simp [State.storeWord, h]

theorem State.loadWord_device (h : s.deviceAt a = some d) :
    s.loadWord a = (s.answer d (.readWord a)).extractLsb' 0 16 := by
  simp [State.loadWord, h]

theorem State.afterWord_device (h : s.deviceAt a = some d) : s.afterWord a = s.logAccess d (.readWord a) := by
  simp [State.afterWord, State.afterRead, h]

theorem State.storeWord_device (h : s.deviceAt a = some d) (v : Word) :
    s.storeWord a v = s.logAccess d (.writeWord a v) := by
  simp [State.storeWord, h]

/-- The three answers to a 32-bit access: main memory at both words, one device at both, or each word its own. -/
theorem State.singleAccess_of {x : Option DeviceId} (h : ∀ c ∈ dwordAddrs a, s.deviceAt c = x) :
    s.singleAccess a = true ∧ s.deviceAt (clearBit0 a) = x := by
  have h0 := h (clearBit0 a) (by simp [dwordAddrs])
  have h1 := h (clearBit0 a + 1) (by simp [dwordAddrs])
  exact ⟨decide_eq_true (h0.trans h1.symm), h0⟩

theorem State.singleAccess_split (h : s.deviceAt (clearBit0 a) ≠ s.deviceAt (clearBit0 a + 1)) :
    s.singleAccess a = false := decide_eq_false h

theorem State.loadDword_memory (h : ∀ c ∈ dwordAddrs a, s.deviceAt c = none) : s.loadDword a = readDword s.mem a := by
  simp [State.loadDword, State.singleAccess_of h]

theorem State.afterDword_memory (h : ∀ c ∈ dwordAddrs a, s.deviceAt c = none) : s.afterDword a = s := by
  simp [State.afterDword, State.afterRead, State.singleAccess_of h]

theorem State.storeDword_memory (h : ∀ c ∈ dwordAddrs a, s.deviceAt c = none) (v : Dword) :
    s.storeDword a v = s.setMem (writeDword s.mem a v) := by
  simp [State.storeDword, State.singleAccess_of h]

theorem State.loadDword_device (h : ∀ c ∈ dwordAddrs a, s.deviceAt c = some d) :
    s.loadDword a = s.answer d (.readDword (clearBit0 a)) := by
  simp [State.loadDword, State.singleAccess_of h]

theorem State.afterDword_device (h : ∀ c ∈ dwordAddrs a, s.deviceAt c = some d) :
    s.afterDword a = s.logAccess d (.readDword (clearBit0 a)) := by
  simp [State.afterDword, State.afterRead, State.singleAccess_of h]

theorem State.storeDword_device (h : ∀ c ∈ dwordAddrs a, s.deviceAt c = some d) (v : Dword) :
    s.storeDword a v = s.logAccess d (.writeDword (clearBit0 a) v) := by
  simp [State.storeDword, State.singleAccess_of h]

theorem State.loadDword_split (h : s.deviceAt (clearBit0 a) ≠ s.deviceAt (clearBit0 a + 1)) :
    s.loadDword a = (s.afterWord (clearBit0 a)).loadWord (clearBit0 a + 1) ++ s.loadWord (clearBit0 a) := by
  rw [State.loadDword, State.singleAccess_split h]
  rfl

theorem State.afterDword_split (h : s.deviceAt (clearBit0 a) ≠ s.deviceAt (clearBit0 a + 1)) :
    s.afterDword a = (s.afterWord (clearBit0 a)).afterWord (clearBit0 a + 1) := by
  rw [State.afterDword, State.singleAccess_split h]
  rfl

theorem State.storeDword_split (h : s.deviceAt (clearBit0 a) ≠ s.deviceAt (clearBit0 a + 1)) (v : Dword) :
    s.storeDword a v =
      (s.storeWord (clearBit0 a) (v.extractLsb' 0 16)).storeWord (clearBit0 a + 1) (v.extractLsb' 16 16) := by
  rw [State.storeDword, State.singleAccess_split h]
  rfl

theorem State.loadSr_base {r : SrAddr} (h : s.srDevice r = none) : s.loadSr r = readSr s r := by
  simp [State.loadSr, h]

theorem State.afterSr_base {r : SrAddr} (h : s.srDevice r = none) : s.afterSr r = s := by
  simp [State.afterSr, State.afterRead, h]

theorem State.storeSr_base {r : SrAddr} (h : s.srDevice r = none) (v : Dword) : s.storeSr r v = writeSr s r v := by
  simp [State.storeSr, h]

theorem State.loadSr_device {r : SrAddr} (h : s.srDevice r = some d) : s.loadSr r = s.answer d (.readSr r) := by
  simp [State.loadSr, h]

theorem State.afterSr_device {r : SrAddr} (h : s.srDevice r = some d) : s.afterSr r = s.logAccess d (.readSr r) := by
  simp [State.afterSr, State.afterRead, h]

theorem State.storeSr_device {r : SrAddr} (h : s.srDevice r = some d) (v : Dword) :
    s.storeSr r v = s.logAccess d (.writeSr r v) := by
  simp [State.storeSr, h]

/-- A fetch from main memory is `FetchInstr` and has no side effect (20_memory.md R88, R93). -/
theorem State.fetch_memory (h : ∀ c ∈ fetchWords s.pc, s.deviceAt c = none) :
    s.fetch = fetchInstr s.mem s.pc ∧ s.afterFetch = s := by
  have h1 : ∀ c ∈ dwordAddrs s.pc, s.deviceAt c = none := fun c hc => h c (List.mem_append_left _ hc)
  have h2 : ∀ c ∈ dwordAddrs (s.pc + 2), s.deviceAt c = none := fun c hc => h c (List.mem_append_right _ hc)
  rw [State.fetch, State.afterFetch, State.afterDword_memory h1, State.loadDword_memory h1,
    State.loadDword_memory h2, State.afterDword_memory h2]
  exact ⟨rfl, rfl⟩

/-- A store keeps the canonical form of memory. -/
theorem State.storeWord_wf (h : s.mem.wf) (v : Word) : (s.storeWord a v).mem.wf := by
  unfold State.storeWord
  split
  · exact h
  · exact writeWord_wf h a v

/-- A store keeps the canonical form of memory. -/
theorem State.storeDword_wf (h : s.mem.wf) (v : Dword) : (s.storeDword a v).mem.wf := by
  unfold State.storeDword
  dsimp only
  split
  · split
    · exact h
    · exact writeDword_wf h a v
  · exact State.storeWord_wf (State.storeWord_wf h _) _

/-- With main memory put at some words, main memory answers there. -/
theorem State.mapWithRam_memoryAt {t : State} {ws : List Addr} (h : t.memoryMap = s.mapWithRam ws) (hc : c ∈ ws) :
    t.memoryAt c = .ram := by
  rw [State.memoryAt, h, State.mapWithRam, List.find?_append]
  cases hf : List.find? (fun x => regionCovers x c)
      ((ws.filter fun a => decide (s.memoryAt a ≠ .ram)).map fun a => (⟨a, a, .ram⟩ : MemoryRegion)) with
  | some r =>
    obtain ⟨a, -, rfl⟩ := List.mem_map.1 (List.mem_of_find?_eq_some hf)
    rfl
  | none =>
    by_cases hr : s.memoryAt c = .ram
    · exact hr
    · have hm : (⟨c, c, .ram⟩ : MemoryRegion) ∈
          (ws.filter fun a => decide (s.memoryAt a ≠ .ram)).map fun a => (⟨a, a, .ram⟩ : MemoryRegion) :=
        List.mem_map.2 ⟨c, List.mem_filter.2 ⟨hc, by simpa using hr⟩, rfl⟩
      exact absurd (List.find?_eq_none.1 hf _ hm) (by simp [regionCovers])

end device

/-- Everything a memory instruction with one effect can do when it goes on. -/
theorem guarded_onMemory_next_cases {p : Pred} {s t e : State} {ws : List Addr}
    (h : guarded p s (onMemory s ws (.next e)) = .next t) :
    (s.pred p = true ∧ (∀ a ∈ ws, s.memoryAt a ≠ .absent) ∧ t = e.retire) ∨ (s.pred p = false ∧ t = s.advance) := by
  by_cases ha : ∃ a ∈ ws, s.memoryAt a = .absent
  · obtain ⟨a, -, -, hk⟩ := onMemory_absent ha
    rw [hk] at h
    cases hp : s.pred p
    · rw [guarded_false hp] at h
      cases h
      exact .inr ⟨rfl, rfl⟩
    · rw [guarded_true hp] at h
      cases h
  · have hn : ∀ a ∈ ws, s.memoryAt a ≠ .absent := fun a hm he => ha ⟨a, hm, he⟩
    rw [onMemory_present hn] at h
    exact (guarded_next_cases h).imp_left fun ⟨hp, ht⟩ => ⟨hp, hn, ht⟩

/-- An executed memory instruction with one effect completes where memory or a device answers. -/
theorem guarded_onMemory_present {p : Pred} {s : State} {ws : List Addr} (hp : s.pred p = true)
    (h : ∀ a ∈ ws, s.memoryAt a ≠ .absent) (e : State) : guarded p s (onMemory s ws (.next e)) = .next e.retire := by
  rw [guarded_true hp, onMemory_present h, retired_next]

/-- An executed memory instruction faults at a word where nothing answers (60_exceptions.md R400; log 15). -/
theorem guarded_onMemory_absent {p : Pred} {s : State} {ws : List Addr} (hp : s.pred p = true)
    (h : ∃ a ∈ ws, s.memoryAt a = .absent) :
    ∃ a ∈ ws, s.memoryAt a = .absent ∧ ∀ k, guarded p s (onMemory s ws k) = .fault (.nothingAt a) := by
  obtain ⟨a, ha, hs, hk⟩ := onMemory_absent h
  exact ⟨a, ha, hs, fun k => by rw [guarded_true hp, hk]; rfl⟩

/-! ### `State.putResult` -/

section putResult
variable (s : State) (m : Modifier) (dst : Reg) (v : Dword)

@[simp] theorem State.putResult_preds : (s.putResult m dst v).preds = s.preds := by cases m <;> rfl
@[simp] theorem State.putResult_pc : (s.putResult m dst v).pc = s.pc := by cases m <;> rfl
@[simp] theorem State.putResult_ien : (s.putResult m dst v).ien = s.ien := by cases m <;> rfl
@[simp] theorem State.putResult_cycles : (s.putResult m dst v).cycles = s.cycles := by cases m <;> rfl
@[simp] theorem State.putResult_instrs : (s.putResult m dst v).instrs = s.instrs := by cases m <;> rfl
@[simp] theorem State.putResult_mulms : (s.putResult m dst v).mulms = s.mulms := by cases m <;> rfl
@[simp] theorem State.putResult_divmsi : (s.putResult m dst v).divmsi = s.divmsi := by cases m <;> rfl
@[simp] theorem State.putResult_divmso : (s.putResult m dst v).divmso = s.divmso := by cases m <;> rfl
@[simp] theorem State.putResult_carry : (s.putResult m dst v).carry = s.carry := by cases m <;> rfl
@[simp] theorem State.putResult_pcSave : (s.putResult m dst v).pcSave = s.pcSave := by cases m <;> rfl
@[simp] theorem State.putResult_mem : (s.putResult m dst v).mem = s.mem := by cases m <;> rfl
@[simp] theorem State.putResult_irqs : (s.putResult m dst v).irqs = s.irqs := by cases m <;> rfl
@[simp] theorem State.putResult_memoryMap : (s.putResult m dst v).memoryMap = s.memoryMap := by cases m <;> rfl
@[simp] theorem State.putResult_extraSr : (s.putResult m dst v).extraSr = s.extraSr := by cases m <;> rfl
@[simp] theorem State.putResult_deviceLog : (s.putResult m dst v).deviceLog = s.deviceLog := by cases m <;> rfl
@[simp] theorem State.putResult_draws : (s.putResult m dst v).draws = s.draws := by cases m <;> rfl
@[simp] theorem State.putResult_pred (q : Pred) : (s.putResult m dst v).pred q = s.pred q := by cases m <;> rfl

@[simp] theorem State.putResult_zeroSlot : (s.putResult m dst v).regs[0] = s.regs[0] := by
  cases m
  · exact s.setReg_zeroSlot dst v
  · exact s.setReg_zeroSlot dst _

/-- Only `dst` receives a result. -/
theorem State.putResult_reg_ne {k : Reg} (h : k ≠ dst) : (s.putResult m dst v).reg k = s.reg k := by
  cases m
  · exact s.setReg_reg_ne _ h
  · exact s.setReg_reg_ne _ h

/-- Where the result goes (40_arith_addsub_logic.md R150, R153). -/
theorem State.putResult_spec : PutsResult m dst v s (s.putResult m dst v) := by
  cases m
  · exact ⟨s.setReg_reg_same dst v, rfl⟩
  · refine ⟨?_, rfl⟩
    show ((s.setReg dst _).reg dst) = _
    rw [State.setReg_reg_same, BitVec.ofNat_add]
    simp

end putResult

/-- Where a result went depends on the register and `sr.acarry` alone. -/
theorem PutsResult.congr {m : Modifier} {dst : Reg} {v : Dword} {s t u : State} (h : PutsResult m dst v s t)
    (hr : u.reg dst = t.reg dst) (ha : u.acarry = t.acarry) : PutsResult m dst v s u := by
  cases m
  · exact ⟨hr.trans h.1, ha.trans h.2⟩
  · exact ⟨hr.trans h.1, ha.trans h.2⟩

/-- Where a result goes is said of any state that agrees on `dst` and `sr.acarry` with the one it is put in. -/
theorem PutsResult.of_before {m : Modifier} {dst : Reg} {v : Dword} {s t u : State} (h : PutsResult m dst v t u)
    (hr : t.reg dst = s.reg dst) (ha : t.acarry = s.acarry) : PutsResult m dst v s u := by
  cases m
  · exact ⟨h.1, h.2.trans ha⟩
  · exact ⟨hr ▸ h.1, hr ▸ h.2⟩

/-! ### Frames -/

/-- A state is in every frame of itself. -/
theorem Frame.refl (w : Writes) (s : State) : Frame w s s := by
  constructor <;> simp

/-- Two effects after one another write what either writes. -/
theorem Frame.trans {w : Writes} {s t u : State} (h1 : Frame w s t) (h2 : Frame w t u) : Frame w s u where
  regs r hr := (h2.regs r hr).trans (h1.regs r hr)
  preds q hq := (h2.preds q hq).trans (h1.preds q hq)
  carry h := (h2.carry h).trans (h1.carry h)
  acarry h := (h2.acarry h).trans (h1.acarry h)
  ien h := (h2.ien h).trans (h1.ien h)
  cycles h := (h2.cycles h).trans (h1.cycles h)
  mulms h := (h2.mulms h).trans (h1.mulms h)
  divmsi h := (h2.divmsi h).trans (h1.divmsi h)
  divmso h := (h2.divmso h).trans (h1.divmso h)
  pcSave h := (h2.pcSave h).trans (h1.pcSave h)
  bytes k hk := (h2.bytes k hk).trans (h1.bytes k hk)
  deviceLog h := (h2.deviceLog h).trans (h1.deviceLog h)
  memoryMap := h2.memoryMap.trans h1.memoryMap
  extraSr := h2.extraSr.trans h1.extraSr
  irqs := h2.irqs.trans h1.irqs
  draws := h2.draws.trans h1.draws

/-- Advancing `pc` and counting the instruction are in every frame. -/
theorem Frame.advance_retire {w : Writes} {s t : State} (h : Frame w s t) : Frame w s t.advance.retire :=
  ⟨h.regs, h.preds, h.carry, h.acarry, h.ien, h.cycles, h.mulms, h.divmsi, h.divmso, h.pcSave, h.bytes,
    h.deviceLog, h.memoryMap, h.extraSr, h.irqs, h.draws⟩

/-- Advancing `pc` alone is in every frame. -/
theorem Frame.advance {w : Writes} {s t : State} (h : Frame w s t) : Frame w s t.advance :=
  ⟨h.regs, h.preds, h.carry, h.acarry, h.ien, h.cycles, h.mulms, h.divmsi, h.divmso, h.pcSave, h.bytes,
    h.deviceLog, h.memoryMap, h.extraSr, h.irqs, h.draws⟩

/-- A guarded instruction stays in every frame its one effect stays in. -/
theorem guarded_frame {p : Pred} {s t e : State} {w : Writes} (h : guarded p s (.next e) = .next t)
    (hf : Frame w s e.retire) : Frame w s t := by
  rcases guarded_next_cases h with ⟨-, rfl⟩ | ⟨-, rfl⟩
  · exact hf
  · exact (Frame.refl w s).advance

/-- A memory instruction stays in every frame its one effect stays in. -/
theorem guarded_onMemory_frame {p : Pred} {s t e : State} {ws : List Addr} {w : Writes}
    (h : guarded p s (onMemory s ws (.next e)) = .next t) (hf : Frame w s e.retire) : Frame w s t := by
  rcases guarded_onMemory_next_cases h with ⟨-, -, rfl⟩ | ⟨-, rfl⟩
  · exact hf
  · exact (Frame.refl w s).advance

/-- A result is in the frame that names its `dst` and `sr.acarry`. -/
theorem Frame.putResult (w : Writes) (s : State) (m : Modifier) (dst : Reg) (v : Dword) (hd : dst ∈ w.regs)
    (ha : m = .accumulate → w.acarry = true) : Frame w s (s.putResult m dst v) := by
  constructor
  case regs =>
    intro r hr
    exact s.putResult_reg_ne m dst v fun e => hr (e ▸ hd)
  case acarry =>
    intro h
    cases m
    · rfl
    · exact absurd (ha rfl) (by simp [h])
  all_goals simp

/-- A register write is in the frame that names the register. -/
theorem Frame.setReg (w : Writes) (s : State) (r : Reg) (v : Dword) (hr : r ∈ w.regs) : Frame w s (s.setReg r v) :=
  Frame.putResult w s .replace r v hr (by simp)

/-- A carry write is in the frame that names `sr.carry`. -/
theorem Frame.setCarry {w : Writes} {s t : State} (h : Frame w s t) (hw : w.carry = true) (c : Bool) :
    Frame w s (t.setCarry c) :=
  ⟨h.regs, h.preds, fun e => absurd hw (by simp [e]), h.acarry, h.ien, h.cycles, h.mulms, h.divmsi, h.divmso,
    h.pcSave, h.bytes,
    h.deviceLog, h.memoryMap, h.extraSr, h.irqs, h.draws⟩

/-- A write of `sr.mulms` is in the frame that names it. -/
theorem Frame.setMulms {w : Writes} {s t : State} (h : Frame w s t) (hw : w.mulms = true) (v : Dword) :
    Frame w s (t.setMulms v) :=
  ⟨h.regs, h.preds, h.carry, h.acarry, h.ien, h.cycles, fun e => absurd hw (by simp [e]), h.divmsi, h.divmso,
    h.pcSave, h.bytes,
    h.deviceLog, h.memoryMap, h.extraSr, h.irqs, h.draws⟩

/-- A write of `sr.divmso` is in the frame that names it. -/
theorem Frame.setDivmso {w : Writes} {s t : State} (h : Frame w s t) (hw : w.divmso = true) (v : Dword) :
    Frame w s (t.setDivmso v) :=
  ⟨h.regs, h.preds, h.carry, h.acarry, h.ien, h.cycles, h.mulms, h.divmsi, fun e => absurd hw (by simp [e]),
    h.pcSave, h.bytes,
    h.deviceLog, h.memoryMap, h.extraSr, h.irqs, h.draws⟩

/-- A predicate write is in the frame that names the predicate. -/
theorem Frame.setPred (w : Writes) (s : State) (q : Pred) (b : Bool) (hq : q ∈ w.preds) :
    Frame w s (s.setPred q b) := by
  constructor
  case preds =>
    intro k hk
    exact s.setPred_pred_ne b fun e => hk (e ▸ hq)
  all_goals simp

/-- A read of a device is in the frame that names devices. -/
theorem Frame.afterRead (w : Writes) (s : State) (d : Option DeviceId) (x : DeviceAccess)
    (h : d.isSome = true → w.devices = true) : Frame w s (s.afterRead d x) := by
  cases d with
  | none => exact Frame.refl w s
  | some d =>
    constructor
    case deviceLog => exact fun e => absurd (h rfl) (by simp [e])
    all_goals simp

/-- A write that a device sees is in the frame that names devices. -/
theorem Frame.logAccess (w : Writes) (s : State) (d : DeviceId) (x : DeviceAccess) (h : w.devices = true) :
    Frame w s (s.logAccess d x) := Frame.afterRead w s (some d) x fun _ => h

/-- A 16-bit read is in the frame that names devices, if it reaches one. -/
theorem Frame.afterWord (w : Writes) (s : State) (a : Addr) (h : (s.deviceAt a).isSome = true → w.devices = true) :
    Frame w s (s.afterWord a) := Frame.afterRead w s _ _ h

/-- A 32-bit read is in the frame that names devices, if one of its words reaches one. -/
theorem Frame.afterDword (w : Writes) (s : State) (a : Addr)
    (h : ∀ c ∈ dwordAddrs a, (s.deviceAt c).isSome = true → w.devices = true) : Frame w s (s.afterDword a) := by
  have h0 := h (clearBit0 a) (by simp [dwordAddrs])
  have h1 := h (clearBit0 a + 1) (by simp [dwordAddrs])
  unfold State.afterDword
  dsimp only
  split
  · exact Frame.afterRead w s _ _ h0
  · refine (Frame.afterWord w s _ h0).trans (Frame.afterWord w _ _ ?_)
    rwa [State.deviceAt_congr (State.afterWord_memoryMap s _)]

/-- The reads of a fetch are in the frame that names devices. -/
theorem Frame.afterFetch (w : Writes) (s : State) (h : w.devices = true) : Frame w s s.afterFetch :=
  (Frame.afterDword w s _ fun _ _ _ => h).trans (Frame.afterDword w _ _ fun _ _ _ => h)

/-- What only devices saw is in every frame that names them. -/
theorem Frame.of_devices {w : Writes} {s t : State} {b : Bool} (h : Frame { devices := b } s t)
    (hb : b = true → w.devices = true) : Frame w s t where
  regs r _ := h.regs r (by simp)
  preds q _ := h.preds q (by simp)
  carry _ := h.carry rfl
  acarry _ := h.acarry rfl
  ien _ := h.ien rfl
  cycles _ := h.cycles rfl
  mulms _ := h.mulms rfl
  divmsi _ := h.divmsi rfl
  divmso _ := h.divmso rfl
  pcSave _ := h.pcSave rfl
  bytes k _ := h.bytes k (by simp)
  deviceLog e := h.deviceLog (Bool.eq_false_iff.2 fun hb' => absurd (hb hb') (by simp [e]))
  memoryMap := h.memoryMap
  extraSr := h.extraSr
  irqs := h.irqs
  draws := h.draws

/-- A new memory is in the frame that names the words it differs in. -/
theorem Frame.setMem {w : Writes} {s : State} {m : Memory}
    (h : ∀ k, (∀ a ∈ w.words, ¬ inWord k a) → readByte m k = readByte s.mem k) : Frame w s (s.setMem m) := by
  constructor
  case bytes => exact h
  all_goals simp

/-- A word store changes the bytes of its word alone. -/
theorem readByte_writeWord_frame (m : Memory) (a : Addr) (v : Word) {words : List Addr} (ha : a ∈ words) (k : Nat)
    (h : ∀ c ∈ words, ¬ inWord k c) : readByte (writeWord m a v) k = readByte m k :=
  readByte_writeWord_ne m a v (fun e => h a ha (.inl e)) (fun e => h a ha (.inr e))

/-- A dword store changes the bytes of its two words alone. -/
theorem readByte_writeDword_frame (m : Memory) (a : Addr) (v : Dword) (k : Nat)
    (h : ∀ c ∈ dwordAddrs a, ¬ inWord k c) : readByte (writeDword m a v) k = readByte m k :=
  readByte_writeDword_ne m a v fun c hc => ⟨fun e => h c hc (.inl e), fun e => h c hc (.inr e)⟩

/-- A 16-bit store is in the frame that names its word, or the device it reaches. -/
theorem Frame.storeWord (w : Writes) (s : State) (a : Addr) (v : Word)
    (hw : s.deviceAt a = none → a ∈ w.words) (hd : (s.deviceAt a).isSome = true → w.devices = true) :
    Frame w s (s.storeWord a v) := by
  cases h : s.deviceAt a with
  | none =>
    rw [State.storeWord_memory h]
    exact Frame.setMem (readByte_writeWord_frame _ a v (hw h))
  | some d =>
    rw [State.storeWord_device h]
    exact Frame.logAccess w s d _ (hd (by simp [h]))

/-- A 32-bit store is in the frame that names its words in main memory, and devices if one of its words reaches one. -/
theorem Frame.storeDword (w : Writes) (s : State) (a : Addr) (v : Dword)
    (hw : ∀ c ∈ dwordAddrs a, s.deviceAt c = none → c ∈ w.words)
    (hd : ∀ c ∈ dwordAddrs a, (s.deviceAt c).isSome = true → w.devices = true) : Frame w s (s.storeDword a v) := by
  have m0 : clearBit0 a ∈ dwordAddrs a := by simp [dwordAddrs]
  have m1 : clearBit0 a + 1 ∈ dwordAddrs a := by simp [dwordAddrs]
  by_cases hs : s.deviceAt (clearBit0 a) = s.deviceAt (clearBit0 a + 1)
  · have hall : ∀ c ∈ dwordAddrs a, s.deviceAt c = s.deviceAt (clearBit0 a) := by simp [dwordAddrs, hs]
    cases h : s.deviceAt (clearBit0 a) with
    | none =>
      rw [h] at hall
      rw [State.storeDword_memory hall]
      exact Frame.setMem fun k hk => readByte_writeDword_frame _ a v k fun c hc => hk c (hw c hc (hall c hc))
    | some d =>
      rw [h] at hall
      rw [State.storeDword_device hall]
      exact Frame.logAccess w s d _ (hd _ m0 (by simp [h]))
  · rw [State.storeDword_split hs]
    refine (Frame.storeWord w s _ _ (hw _ m0) (hd _ m0)).trans (Frame.storeWord w _ _ _ ?_ ?_) <;>
      rw [State.deviceAt_congr (State.storeWord_memoryMap s _ _)]
    · exact hw _ m1
    · exact hd _ m1

/-! ### The effects the instructions share -/

/-- `plainEffect` in any frame that names what it writes. -/
theorem plainEffect_frame (w : Writes) (m : Modifier) (dst : Reg) (v : Dword) (s : State) (hd : dst ∈ w.regs)
    (ha : m = .accumulate → w.acarry = true) : Frame w s (plainEffect m dst v s).retire :=
  (Frame.putResult w s m dst v hd ha).advance_retire

/-- `addEffect` in any frame that names what it writes. -/
theorem addEffect_frame (w : Writes) (m : Modifier) (dst : Reg) (a b : Dword) (c : Bool) (s : State)
    (hd : dst ∈ w.regs) (ha : m = .accumulate → w.acarry = true) (hc : w.carry = true) :
    Frame w s (addEffect m dst a b c s).retire :=
  ((Frame.putResult w s m dst _ hd ha).setCarry hc _).advance_retire

/-- `subEffect` in any frame that names what it writes. -/
theorem subEffect_frame (w : Writes) (m : Modifier) (dst : Reg) (a b : Dword) (c : Bool) (s : State)
    (hd : dst ∈ w.regs) (ha : m = .accumulate → w.acarry = true) (hc : w.carry = true) :
    Frame w s (subEffect m dst a b c s).retire :=
  ((Frame.putResult w s m dst _ hd ha).setCarry hc _).advance_retire

/-- `carryShiftEffect` in any frame that names what it writes. -/
theorem carryShiftEffect_frame (w : Writes) (m : Modifier) (dst : Reg) (x : Option (Dword × Bool)) (s : State)
    (hd : dst ∈ w.regs) (ha : m = .accumulate → w.acarry = true) (hc : w.carry = true) :
    Frame w s (carryShiftEffect m dst x s).retire :=
  ((Frame.putResult w s m dst _ hd ha).setCarry hc _).advance_retire

/-- `mulEffect` in any frame that names what it writes. -/
theorem mulEffect_frame (w : Writes) (m : Modifier) (dst : Reg) (a b : Dword) (s : State) (hd : dst ∈ w.regs)
    (ha : m = .accumulate → w.acarry = true) (hm : w.mulms = true) : Frame w s (mulEffect m dst a b s).retire :=
  ((Frame.putResult w s m dst _ hd ha).setMulms hm _).advance_retire

/-- `divEffect` in any frame that names what it writes. -/
theorem divEffect_frame (w : Writes) (op : Opcode) (m : Modifier) (dst : Reg) (a b : Dword) (s : State)
    (hd : dst ∈ w.regs) (ha : m = .accumulate → w.acarry = true) (hm : w.divmso = true) :
    Frame w s (divEffect op m dst a b s).retire :=
  ((Frame.putResult w s m dst _ hd ha).setDivmso hm _).advance_retire

/-- `popEffect` in any frame that names what it writes. -/
theorem popEffect_frame (w : Writes) (m : Modifier) (dst rs1 : Reg) (v : Dword) (s : State) (hd : dst ∈ w.regs)
    (hr : rs1 ∈ w.regs) (ha : m = .accumulate → w.acarry = true) : Frame w s (popEffect m dst rs1 v s).retire :=
  ((Frame.putResult w s m dst v hd ha).trans (Frame.setReg w _ rs1 _ hr)).advance_retire

/-- `pushEffect` in any frame that names its base register. -/
theorem pushEffect_frame {w : Writes} {s t : State} (rs1 : Reg) (h : Frame w s t) (hr : rs1 ∈ w.regs) :
    Frame w s (pushEffect rs1 t).retire :=
  (h.trans (Frame.setReg w t rs1 _ hr)).advance_retire

/-- An instruction completed in sequence after an access that changed neither `pc` nor the count. -/
theorem Sequential.after {w : Writes} {s t u : State} (h : Frame w s t) (hpc : t.pc = s.pc)
    (hi : t.instrs = s.instrs) (hu : Sequential w t u) : Sequential w s u :=
  ⟨by rw [hu.pc, hpc], by rw [hu.instrs, hi], h.trans hu.frame⟩

/-- A sequential instruction's `pc` and count, from its frame. -/
theorem Sequential.of_frame {w : Writes} {s t : State} (h : Frame w s t) (hpc : t.pc = s.pc)
    (hi : t.instrs = s.instrs) : Sequential w s t.advance.retire :=
  ⟨by simp [hpc], by simp [hi], h.advance_retire⟩

/-- `plainEffect` (40_arith_addsub_logic.md R150, R153). -/
theorem plainEffect_spec (m : Modifier) (dst : Reg) (v : Dword) (s : State) :
    Sequential { regs := [dst], acarry := true } s (plainEffect m dst v s).retire ∧
      PutsResult m dst v s (plainEffect m dst v s).retire :=
  ⟨.of_frame (Frame.putResult _ s m dst v (by simp) (by simp)) (by simp) (by simp),
    (s.putResult_spec m dst v).congr rfl rfl⟩

/-- `addEffect` (40_arith_addsub_logic.md R154). -/
theorem addEffect_spec (m : Modifier) (dst : Reg) (a b : Dword) (c : Bool) (s : State) :
    Sequential { regs := [dst], carry := true, acarry := true } s (addEffect m dst a b c s).retire ∧
      PutsResult m dst (addC a b c).1 s (addEffect m dst a b c s).retire ∧
      (addEffect m dst a b c s).retire.carry = (addC a b c).2 :=
  ⟨.of_frame ((Frame.putResult _ s m dst _ (by simp) (by simp)).setCarry rfl _) (by simp) (by simp),
    (s.putResult_spec m dst _).congr rfl rfl, rfl⟩

/-- `subEffect` (40_arith_addsub_logic.md R154). -/
theorem subEffect_spec (m : Modifier) (dst : Reg) (a b : Dword) (c : Bool) (s : State) :
    Sequential { regs := [dst], carry := true, acarry := true } s (subEffect m dst a b c s).retire ∧
      PutsResult m dst (subB a b c).1 s (subEffect m dst a b c s).retire ∧
      (subEffect m dst a b c s).retire.carry = (subB a b c).2 :=
  ⟨.of_frame ((Frame.putResult _ s m dst _ (by simp) (by simp)).setCarry rfl _) (by simp) (by simp),
    (s.putResult_spec m dst _).congr rfl rfl, rfl⟩

/-- `carryShiftEffect` (41_arith_shift.md R202). -/
theorem carryShiftEffect_spec (m : Modifier) (dst : Reg) (x : Option (Dword × Bool)) (s : State) :
    Sequential { regs := [dst], carry := true, acarry := true } s (carryShiftEffect m dst x s).retire ∧
      PutsResult m dst (x.getD (Config.freeDword s.draws, Config.freeBit s.draws)).1 s
        (carryShiftEffect m dst x s).retire ∧
      (carryShiftEffect m dst x s).retire.carry = (x.getD (Config.freeDword s.draws, Config.freeBit s.draws)).2 :=
  ⟨.of_frame ((Frame.putResult _ s m dst _ (by simp) (by simp)).setCarry rfl _) (by simp) (by simp),
    (s.putResult_spec m dst _).congr rfl rfl, rfl⟩

/-- `mulEffect` (42_arith_muldiv.md R231). -/
theorem mulEffect_spec (m : Modifier) (dst : Reg) (a b : Dword) (s : State) :
    Sequential { regs := [dst], acarry := true, mulms := true } s (mulEffect m dst a b s).retire ∧
      PutsResult m dst (mulU a b).1 s (mulEffect m dst a b s).retire ∧
      (mulEffect m dst a b s).retire.mulms = (mulU a b).2 :=
  ⟨.of_frame ((Frame.putResult _ s m dst _ (by simp) (by simp)).setMulms rfl _) (by simp) (by simp),
    (s.putResult_spec m dst _).congr rfl rfl, rfl⟩

/-- `divEffect` (42_arith_muldiv.md R234, R237). -/
theorem divEffect_spec (op : Opcode) (m : Modifier) (dst : Reg) (a b : Dword) (s : State) :
    Sequential { regs := [dst], acarry := true, divmso := true } s (divEffect op m dst a b s).retire ∧
      PutsResult m dst (divUOr0 op s.divmsi a b).1 s (divEffect op m dst a b s).retire ∧
      (divEffect op m dst a b s).retire.divmso = (divUOr0 op s.divmsi a b).2 :=
  ⟨.of_frame ((Frame.putResult _ s m dst _ (by simp) (by simp)).setDivmso rfl _) (by simp) (by simp),
    (s.putResult_spec m dst _).congr rfl rfl, rfl⟩

/-- `predEffect` (43_predicate.md R270). -/
theorem predEffect_spec (dstp : Pred) (b : Bool) (s : State) :
    Sequential { preds := [dstp] } s (predEffect dstp b s).retire ∧
      (predEffect dstp b s).retire.pred dstp = if dstp = 0 then true else b :=
  ⟨.of_frame (Frame.setPred _ s dstp b (by simp)) (by simp) (by simp), s.setPred_pred_same dstp b⟩

/-- `compareEffect` (47_compare.md R350). -/
theorem compareEffect_spec (dst : Reg) (b : Bool) (s : State) :
    Sequential { regs := [dst] } s (compareEffect dst b s).retire ∧
      Received (compareEffect dst b s).retire dst (if b then 1 else 0) :=
  ⟨.of_frame (Frame.setReg _ s dst _ (by simp)) (by simp) (by simp), s.setReg_reg_same dst _⟩

/-- `pushEffect` after the store (44_memory_instr.md R292). -/
theorem pushEffect_spec {words : List Addr} {b : Bool} {s t : State} (rs1 : Reg)
    (h : Frame { regs := [rs1], words := words, devices := b } s t) (hpc : t.pc = s.pc) (hi : t.instrs = s.instrs)
    (hr : t.reg rs1 = s.reg rs1) :
    Sequential { regs := [rs1], words := words, devices := b } s (pushEffect rs1 t).retire ∧
      (pushEffect rs1 t).retire.mem = t.mem ∧ (pushEffect rs1 t).retire.deviceLog = t.deviceLog ∧
      Received (pushEffect rs1 t).retire rs1 (s.reg rs1 - 1) :=
  ⟨.of_frame (h.trans (Frame.setReg _ t rs1 _ (by simp))) (by simp [hpc]) (by simp [hi]), rfl, rfl,
    hr ▸ t.setReg_reg_same rs1 _⟩

/-- `popEffect` completes in sequence, for every pair of registers (44_memory_instr.md R292). -/
theorem popEffect_sequential (m : Modifier) (dst rs1 : Reg) (v : Dword) (s : State) :
    Sequential { regs := [dst, rs1], acarry := true } s (popEffect m dst rs1 v s).retire :=
  ⟨by simp [popEffect], by simp [popEffect],
    popEffect_frame _ m dst rs1 v s (by simp) (by simp) (by simp)⟩

/-- `popEffect` with two registers, or with `dst = rs1 = r0` (44_memory_instr.md R292). -/
theorem popEffect_spec (m : Modifier) (dst rs1 : Reg) (v : Dword) (s : State) (h : dst ≠ rs1 ∨ dst = 0) :
    PutsResult m dst v s (popEffect m dst rs1 v s).retire ∧
      Received (popEffect m dst rs1 v s).retire rs1 (s.reg rs1 + 1) := by
  by_cases hz : rs1 = 0
  · subst hz
    exact ⟨(s.putResult_spec m dst v).congr rfl rfl, by simp [Received]⟩
  · have hne : dst ≠ rs1 := h.elim id fun e => e ▸ fun e' => hz e'.symm
    refine ⟨(s.putResult_spec m dst v).congr ?_ rfl, ?_⟩
    · exact State.setReg_reg_ne _ _ hne
    · exact (State.setReg_reg_same _ rs1 _).trans (by simp [hne, Config.stackStep])

/-- `loadEffect` after a read that only devices may have seen (44_memory_instr.md R291, 20_memory.md R93). -/
theorem loadEffect_spec {b : Bool} {s t : State} (m : Modifier) (dst : Reg) (v : Dword)
    (h : Frame { devices := b } s t) (hpc : t.pc = s.pc) (hi : t.instrs = s.instrs) :
    Sequential { regs := [dst], acarry := true, devices := b } s (loadEffect m dst v t).retire ∧
      PutsResult m dst v s (loadEffect m dst v t).retire ∧ (loadEffect m dst v t).retire.deviceLog = t.deviceLog := by
  obtain ⟨h1, h2⟩ := plainEffect_spec m dst v t
  refine ⟨.after (h.of_devices id) hpc hi ⟨h1.pc, h1.instrs, ?_⟩,
    h2.of_before (h.regs dst (by simp)) (h.acarry rfl), State.putResult_deviceLog ..⟩
  exact plainEffect_frame _ m dst v _ (by simp) (by simp)

/-- The carry of an accumulation is the one out of its 32-bit addition, whatever else becomes of `dst`
(40_arith_addsub_logic.md R153). -/
theorem popEffect_acarry (m : Modifier) (dst rs1 : Reg) (v : Dword) (s : State) :
    (m = .replace → (popEffect m dst rs1 v s).retire.acarry = s.acarry) ∧
      (m = .accumulate →
        (popEffect m dst rs1 v s).retire.acarry = decide (2 ^ 32 ≤ (s.reg dst).toNat + v.toNat)) := by
  constructor <;> rintro rfl <;> rfl

/-- `popEffect` after a read that only devices may have seen (44_memory_instr.md R292, 20_memory.md R93). -/
theorem popEffect_after {b : Bool} {s t : State} (m : Modifier) (dst rs1 : Reg) (v : Dword)
    (h : Frame { devices := b } s t) (hpc : t.pc = s.pc) (hi : t.instrs = s.instrs) :
    Sequential { regs := [dst, rs1], acarry := true, devices := b } s (popEffect m dst rs1 v t).retire ∧
      (popEffect m dst rs1 v t).retire.deviceLog = t.deviceLog ∧
      (m = .replace → (popEffect m dst rs1 v t).retire.acarry = s.acarry) ∧
      (m = .accumulate →
        (popEffect m dst rs1 v t).retire.acarry = decide (2 ^ 32 ≤ (s.reg dst).toNat + v.toNat)) ∧
      (dst ≠ rs1 ∨ dst = 0 → PutsResult m dst v s (popEffect m dst rs1 v t).retire ∧
        Received (popEffect m dst rs1 v t).retire rs1 (s.reg rs1 + 1)) := by
  have h1 := popEffect_sequential m dst rs1 v t
  have hd : t.reg dst = s.reg dst := h.regs dst (by simp)
  obtain ⟨ha, hb⟩ := popEffect_acarry m dst rs1 v t
  refine ⟨.after (h.of_devices id) hpc hi ⟨h1.pc, h1.instrs, ?_⟩, State.putResult_deviceLog ..,
    fun e => (ha e).trans (h.acarry rfl), fun e => hd ▸ hb e, fun e => ?_⟩
  · exact popEffect_frame _ m dst rs1 v _ (by simp) (by simp) (by simp)
  · obtain ⟨h2, h3⟩ := popEffect_spec m dst rs1 v t e
    have hr : t.reg rs1 = s.reg rs1 := h.regs rs1 (by simp)
    exact ⟨h2.of_before hd (h.acarry rfl), hr ▸ h3⟩

/-- `branchEffect` of a taken branch (45_branch.md R320). -/
theorem branchEffect_taken (imm17 : BitVec 17) (s : State) :
    branchEffect true imm17 s = (s.setReg linkReg (s.pc + 4)).setPc (branchTarget s.pc imm17) := rfl

/-- `branchEffect` of a branch that is not taken (45_branch.md R320). -/
theorem branchEffect_not_taken (imm17 : BitVec 17) (s : State) : branchEffect false imm17 s = s.advance := rfl

/-- The link of branches and jumps: only `r1` and `pc` change (45_branch.md R320, 46_jump.md R340). -/
theorem link_spec (s : State) (target : Addr) :
    Frame { regs := [linkReg] } s ((s.setReg linkReg (s.pc + 4)).setPc target).retire ∧
      ((s.setReg linkReg (s.pc + 4)).setPc target).retire.reg linkReg = s.pc + 4 ∧
      ((s.setReg linkReg (s.pc + 4)).setPc target).retire.pc = target := by
  have h : Frame { regs := [linkReg] } s (s.setReg linkReg (s.pc + 4)) := Frame.setReg _ s linkReg _ (by simp)
  refine ⟨⟨h.regs, h.preds, h.carry, h.acarry, h.ien, h.cycles, h.mulms, h.divmsi, h.divmso, h.pcSave, h.bytes,
    h.deviceLog, h.memoryMap, h.extraSr, h.irqs, h.draws⟩, ?_, rfl⟩
  exact (s.setReg_reg_same linkReg _).trans (if_neg (by decide))

/-- `branchEffect` in the frame of the link (45_branch.md R320). -/
theorem branchEffect_frame (b : Bool) (imm17 : BitVec 17) (s : State) :
    Frame { regs := [linkReg] } s (branchEffect b imm17 s).retire := by
  cases b
  · exact (Frame.refl _ s).advance_retire
  · exact (link_spec s (branchTarget s.pc imm17)).1

/-- Taking a trap (60_exceptions.md R402). -/
theorem takeTrap_frame (s : State) (n : Nat) (ret : Addr) :
    Frame { ien := true, pcSave := true } s (s.takeTrap n ret).retire := by
  constructor <;> simp

/-- The return from a trap (60_exceptions.md R409). -/
theorem returnFromTrap_frame (s : State) : Frame { ien := true } s s.returnFromTrap.retire := by
  constructor <;> simp

/-- A status-register write changes the register addressed alone (10_state.md R58). -/
theorem writeSr_frame (w : Writes) (s : State) (a : SrAddr) (v : Dword) (h3 : a.toNat = 0x3 → w.ien = true)
    (h4 : a.toNat = 0x4 → w.cycles = true) (h6 : a.toNat = 0x6 → w.mulms = true)
    (h7 : a.toNat = 0x7 → w.divmsi = true) (h8 : a.toNat = 0x8 → w.divmso = true)
    (h9 : a.toNat = 0x9 → w.carry = true) (hA : a.toNat = 0xA → w.acarry = true)
    (hB : a.toNat = 0xB → w.pcSave = true) : Frame w s (writeSr s a v) := by
  unfold writeSr
  split <;> constructor <;> simp_all [State.reg, State.pred]

/-- A status-register write, also of a register a device answers for, changes what is addressed alone. -/
theorem Frame.storeSr (w : Writes) (s : State) (a : SrAddr) (v : Dword) (h3 : a.toNat = 0x3 → w.ien = true)
    (h4 : a.toNat = 0x4 → w.cycles = true) (h6 : a.toNat = 0x6 → w.mulms = true)
    (h7 : a.toNat = 0x7 → w.divmsi = true) (h8 : a.toNat = 0x8 → w.divmso = true)
    (h9 : a.toNat = 0x9 → w.carry = true) (hA : a.toNat = 0xA → w.acarry = true)
    (hB : a.toNat = 0xB → w.pcSave = true) (hd : (s.srDevice a).isSome = true → w.devices = true) :
    Frame w s (s.storeSr a v) := by
  cases h : s.srDevice a with
  | none =>
    rw [State.storeSr_base h]
    exact writeSr_frame w s a v h3 h4 h6 h7 h8 h9 hA hB
  | some d =>
    rw [State.storeSr_device h]
    exact Frame.logAccess w s d _ (hd (by simp [h]))

/-! ### Targets and addresses -/

/-- The vector of trap `n` is at `8n` (60_exceptions.md R402). -/
@[simp] theorem vectorStride_eq : Config.vectorStride = 8 := rfl

/-- A cleared bit 0 is clear. -/
@[simp] theorem clearBit0_getLsbD_zero (a : Addr) : (clearBit0 a).getLsbD 0 = false := by
  simp [clearBit0]

/-- An even address has bit 0 clear already. -/
theorem clearBit0_of_even {a : Addr} (h : a.getLsbD 0 = false) : clearBit0 a = a := by
  apply BitVec.eq_of_toNat_eq
  rw [clearBit0_toNat]
  have : a.toNat % 2 = 0 := by
    have h0 := h
    simp only [BitVec.getLsbD, Nat.testBit_zero, decide_eq_false_iff_not] at h0
    omega
  omega

end Sys2Proof.Machine
end

