-- ==== Sys2Proof/Laws/PerInstr.lean ====
section
/-! SUPPORT. One lemma per constructor of `Instr`: what its encoding writes. -/

namespace Sys2Proof.Laws.EncodedBits

/-- The encoding of an instruction holds its predicate in `P` (30_encoding.md R118) and has 0 in every bit the
instruction does not read (R117, R123). -/
def Statement (i : Instr) : Prop := predField (encode i) = i.predicate ∧ encode i &&& i.usedBits = encode i

theorem nop (p : Pred) :
    Statement (.nop p) :=
  ⟨(encR_fields 0x00 p 0 0 0).2.1, encR_none_used 0x00 p⟩

theorem add (p : Pred) (dst rs1 rs2 : Reg) :
    Statement (.add p dst rs1 rs2) :=
  ⟨(encR_fields 0x01 p dst rs1 rs2).2.1, encR_used 0x01 p dst rs1 rs2⟩

theorem adc (p : Pred) (dst rs1 rs2 : Reg) :
    Statement (.adc p dst rs1 rs2) :=
  ⟨(encR_fields 0x02 p dst rs1 rs2).2.1, encR_used 0x02 p dst rs1 rs2⟩

theorem sub (p : Pred) (dst rs1 rs2 : Reg) :
    Statement (.sub p dst rs1 rs2) :=
  ⟨(encR_fields 0x03 p dst rs1 rs2).2.1, encR_used 0x03 p dst rs1 rs2⟩

theorem suc (p : Pred) (dst rs1 rs2 : Reg) :
    Statement (.suc p dst rs1 rs2) :=
  ⟨(encR_fields 0x04 p dst rs1 rs2).2.1, encR_used 0x04 p dst rs1 rs2⟩

theorem and (p : Pred) (dst rs1 rs2 : Reg) :
    Statement (.and p dst rs1 rs2) :=
  ⟨(encR_fields 0x05 p dst rs1 rs2).2.1, encR_used 0x05 p dst rs1 rs2⟩

theorem ior (p : Pred) (dst rs1 rs2 : Reg) :
    Statement (.ior p dst rs1 rs2) :=
  ⟨(encR_fields 0x06 p dst rs1 rs2).2.1, encR_used 0x06 p dst rs1 rs2⟩

theorem xor (p : Pred) (dst rs1 rs2 : Reg) :
    Statement (.xor p dst rs1 rs2) :=
  ⟨(encR_fields 0x07 p dst rs1 rs2).2.1, encR_used 0x07 p dst rs1 rs2⟩

theorem slc (p : Pred) (dst rs1 rs2 : Reg) :
    Statement (.slc p dst rs1 rs2) :=
  ⟨(encR_fields 0x08 p dst rs1 rs2).2.1, encR_used 0x08 p dst rs1 rs2⟩

theorem sl (p : Pred) (dst rs1 rs2 : Reg) :
    Statement (.sl p dst rs1 rs2) :=
  ⟨(encR_fields 0x09 p dst rs1 rs2).2.1, encR_used 0x09 p dst rs1 rs2⟩

theorem src (p : Pred) (dst rs1 rs2 : Reg) :
    Statement (.src p dst rs1 rs2) :=
  ⟨(encR_fields 0x0A p dst rs1 rs2).2.1, encR_used 0x0A p dst rs1 rs2⟩

theorem sr (p : Pred) (dst rs1 rs2 : Reg) :
    Statement (.sr p dst rs1 rs2) :=
  ⟨(encR_fields 0x0B p dst rs1 rs2).2.1, encR_used 0x0B p dst rs1 rs2⟩

theorem sar (p : Pred) (dst rs1 rs2 : Reg) :
    Statement (.sar p dst rs1 rs2) :=
  ⟨(encR_fields 0x0C p dst rs1 rs2).2.1, encR_used 0x0C p dst rs1 rs2⟩

theorem addi (p : Pred) (dst rs1 : Reg) (ul : Bool) (imm16 : BitVec 16) :
    Statement (.addi p dst rs1 ul imm16) :=
  ⟨(encI_fields 0x11 p dst rs1 ul imm16).2.1, encI_used 0x11 p dst rs1 ul imm16⟩

theorem adci (p : Pred) (dst rs1 : Reg) (ul : Bool) (imm16 : BitVec 16) :
    Statement (.adci p dst rs1 ul imm16) :=
  ⟨(encI_fields 0x12 p dst rs1 ul imm16).2.1, encI_used 0x12 p dst rs1 ul imm16⟩

theorem subi (p : Pred) (dst rs1 : Reg) (ul : Bool) (imm16 : BitVec 16) :
    Statement (.subi p dst rs1 ul imm16) :=
  ⟨(encI_fields 0x13 p dst rs1 ul imm16).2.1, encI_used 0x13 p dst rs1 ul imm16⟩

theorem suci (p : Pred) (dst rs1 : Reg) (ul : Bool) (imm16 : BitVec 16) :
    Statement (.suci p dst rs1 ul imm16) :=
  ⟨(encI_fields 0x14 p dst rs1 ul imm16).2.1, encI_used 0x14 p dst rs1 ul imm16⟩

theorem andi (p : Pred) (dst rs1 : Reg) (ul : Bool) (imm16 : BitVec 16) :
    Statement (.andi p dst rs1 ul imm16) :=
  ⟨(encI_fields 0x15 p dst rs1 ul imm16).2.1, encI_used 0x15 p dst rs1 ul imm16⟩

theorem iori (p : Pred) (dst rs1 : Reg) (ul : Bool) (imm16 : BitVec 16) :
    Statement (.iori p dst rs1 ul imm16) :=
  ⟨(encI_fields 0x16 p dst rs1 ul imm16).2.1, encI_used 0x16 p dst rs1 ul imm16⟩

theorem xori (p : Pred) (dst rs1 : Reg) (ul : Bool) (imm16 : BitVec 16) :
    Statement (.xori p dst rs1 ul imm16) :=
  ⟨(encI_fields 0x17 p dst rs1 ul imm16).2.1, encI_used 0x17 p dst rs1 ul imm16⟩

theorem slci (p : Pred) (dst rs1 : Reg) (ul : Bool) (imm16 : BitVec 16) :
    Statement (.slci p dst rs1 ul imm16) :=
  ⟨(encI_fields 0x18 p dst rs1 ul imm16).2.1, encI_used 0x18 p dst rs1 ul imm16⟩

theorem sli (p : Pred) (dst rs1 : Reg) (ul : Bool) (imm16 : BitVec 16) :
    Statement (.sli p dst rs1 ul imm16) :=
  ⟨(encI_fields 0x19 p dst rs1 ul imm16).2.1, encI_used 0x19 p dst rs1 ul imm16⟩

theorem srci (p : Pred) (dst rs1 : Reg) (ul : Bool) (imm16 : BitVec 16) :
    Statement (.srci p dst rs1 ul imm16) :=
  ⟨(encI_fields 0x1A p dst rs1 ul imm16).2.1, encI_used 0x1A p dst rs1 ul imm16⟩

theorem sri (p : Pred) (dst rs1 : Reg) (ul : Bool) (imm16 : BitVec 16) :
    Statement (.sri p dst rs1 ul imm16) :=
  ⟨(encI_fields 0x1B p dst rs1 ul imm16).2.1, encI_used 0x1B p dst rs1 ul imm16⟩

theorem sari (p : Pred) (dst rs1 : Reg) (ul : Bool) (imm16 : BitVec 16) :
    Statement (.sari p dst rs1 ul imm16) :=
  ⟨(encI_fields 0x1C p dst rs1 ul imm16).2.1, encI_used 0x1C p dst rs1 ul imm16⟩

theorem mul (p : Pred) (dst rs1 rs2 : Reg) :
    Statement (.mul p dst rs1 rs2) :=
  ⟨(encR_fields 0x20 p dst rs1 rs2).2.1, encR_used 0x20 p dst rs1 rs2⟩

theorem muls (p : Pred) (dst rs1 rs2 : Reg) :
    Statement (.muls p dst rs1 rs2) :=
  ⟨(encR_fields 0x21 p dst rs1 rs2).2.1, encR_used 0x21 p dst rs1 rs2⟩

theorem div (p : Pred) (dst rs1 rs2 : Reg) :
    Statement (.div p dst rs1 rs2) :=
  ⟨(encR_fields 0x22 p dst rs1 rs2).2.1, encR_used 0x22 p dst rs1 rs2⟩

theorem divs (p : Pred) (dst rs1 rs2 : Reg) :
    Statement (.divs p dst rs1 rs2) :=
  ⟨(encR_fields 0x23 p dst rs1 rs2).2.1, encR_used 0x23 p dst rs1 rs2⟩

theorem mulf (p : Pred) (dst rs1 rs2 : Reg) :
    Statement (.mulf p dst rs1 rs2) :=
  ⟨(encR_fields 0x28 p dst rs1 rs2).2.1, encR_used 0x28 p dst rs1 rs2⟩

theorem divf (p : Pred) (dst rs1 rs2 : Reg) :
    Statement (.divf p dst rs1 rs2) :=
  ⟨(encR_fields 0x29 p dst rs1 rs2).2.1, encR_used 0x29 p dst rs1 rs2⟩

theorem muli (p : Pred) (dst rs1 : Reg) (ul : Bool) (imm16 : BitVec 16) :
    Statement (.muli p dst rs1 ul imm16) :=
  ⟨(encI_fields 0x30 p dst rs1 ul imm16).2.1, encI_used 0x30 p dst rs1 ul imm16⟩

theorem mulsi (p : Pred) (dst rs1 : Reg) (ul : Bool) (imm16 : BitVec 16) :
    Statement (.mulsi p dst rs1 ul imm16) :=
  ⟨(encI_fields 0x31 p dst rs1 ul imm16).2.1, encI_used 0x31 p dst rs1 ul imm16⟩

theorem divi (p : Pred) (dst rs1 : Reg) (ul : Bool) (imm16 : BitVec 16) :
    Statement (.divi p dst rs1 ul imm16) :=
  ⟨(encI_fields 0x32 p dst rs1 ul imm16).2.1, encI_used 0x32 p dst rs1 ul imm16⟩

theorem divsi (p : Pred) (dst rs1 : Reg) (ul : Bool) (imm16 : BitVec 16) :
    Statement (.divsi p dst rs1 ul imm16) :=
  ⟨(encI_fields 0x33 p dst rs1 ul imm16).2.1, encI_used 0x33 p dst rs1 ul imm16⟩

theorem mulfi (p : Pred) (dst rs1 : Reg) (ul : Bool) (imm16 : BitVec 16) :
    Statement (.mulfi p dst rs1 ul imm16) :=
  ⟨(encI_fields 0x38 p dst rs1 ul imm16).2.1, encI_used 0x38 p dst rs1 ul imm16⟩

theorem divfi (p : Pred) (dst rs1 : Reg) (ul : Bool) (imm16 : BitVec 16) :
    Statement (.divfi p dst rs1 ul imm16) :=
  ⟨(encI_fields 0x39 p dst rs1 ul imm16).2.1, encI_used 0x39 p dst rs1 ul imm16⟩

theorem aadd (p : Pred) (dst rs1 rs2 : Reg) :
    Statement (.aadd p dst rs1 rs2) :=
  ⟨(encR_fields 0x41 p dst rs1 rs2).2.1, encR_used 0x41 p dst rs1 rs2⟩

theorem aadc (p : Pred) (dst rs1 rs2 : Reg) :
    Statement (.aadc p dst rs1 rs2) :=
  ⟨(encR_fields 0x42 p dst rs1 rs2).2.1, encR_used 0x42 p dst rs1 rs2⟩

theorem asub (p : Pred) (dst rs1 rs2 : Reg) :
    Statement (.asub p dst rs1 rs2) :=
  ⟨(encR_fields 0x43 p dst rs1 rs2).2.1, encR_used 0x43 p dst rs1 rs2⟩

theorem asuc (p : Pred) (dst rs1 rs2 : Reg) :
    Statement (.asuc p dst rs1 rs2) :=
  ⟨(encR_fields 0x44 p dst rs1 rs2).2.1, encR_used 0x44 p dst rs1 rs2⟩

theorem aand (p : Pred) (dst rs1 rs2 : Reg) :
    Statement (.aand p dst rs1 rs2) :=
  ⟨(encR_fields 0x45 p dst rs1 rs2).2.1, encR_used 0x45 p dst rs1 rs2⟩

theorem aior (p : Pred) (dst rs1 rs2 : Reg) :
    Statement (.aior p dst rs1 rs2) :=
  ⟨(encR_fields 0x46 p dst rs1 rs2).2.1, encR_used 0x46 p dst rs1 rs2⟩

theorem axor (p : Pred) (dst rs1 rs2 : Reg) :
    Statement (.axor p dst rs1 rs2) :=
  ⟨(encR_fields 0x47 p dst rs1 rs2).2.1, encR_used 0x47 p dst rs1 rs2⟩

theorem aslc (p : Pred) (dst rs1 rs2 : Reg) :
    Statement (.aslc p dst rs1 rs2) :=
  ⟨(encR_fields 0x48 p dst rs1 rs2).2.1, encR_used 0x48 p dst rs1 rs2⟩

theorem asl (p : Pred) (dst rs1 rs2 : Reg) :
    Statement (.asl p dst rs1 rs2) :=
  ⟨(encR_fields 0x49 p dst rs1 rs2).2.1, encR_used 0x49 p dst rs1 rs2⟩

theorem asrc (p : Pred) (dst rs1 rs2 : Reg) :
    Statement (.asrc p dst rs1 rs2) :=
  ⟨(encR_fields 0x4A p dst rs1 rs2).2.1, encR_used 0x4A p dst rs1 rs2⟩

theorem asr (p : Pred) (dst rs1 rs2 : Reg) :
    Statement (.asr p dst rs1 rs2) :=
  ⟨(encR_fields 0x4B p dst rs1 rs2).2.1, encR_used 0x4B p dst rs1 rs2⟩

theorem asar (p : Pred) (dst rs1 rs2 : Reg) :
    Statement (.asar p dst rs1 rs2) :=
  ⟨(encR_fields 0x4C p dst rs1 rs2).2.1, encR_used 0x4C p dst rs1 rs2⟩

theorem aaddi (p : Pred) (dst rs1 : Reg) (ul : Bool) (imm16 : BitVec 16) :
    Statement (.aaddi p dst rs1 ul imm16) :=
  ⟨(encI_fields 0x51 p dst rs1 ul imm16).2.1, encI_used 0x51 p dst rs1 ul imm16⟩

theorem aadci (p : Pred) (dst rs1 : Reg) (ul : Bool) (imm16 : BitVec 16) :
    Statement (.aadci p dst rs1 ul imm16) :=
  ⟨(encI_fields 0x52 p dst rs1 ul imm16).2.1, encI_used 0x52 p dst rs1 ul imm16⟩

theorem asubi (p : Pred) (dst rs1 : Reg) (ul : Bool) (imm16 : BitVec 16) :
    Statement (.asubi p dst rs1 ul imm16) :=
  ⟨(encI_fields 0x53 p dst rs1 ul imm16).2.1, encI_used 0x53 p dst rs1 ul imm16⟩

theorem asuci (p : Pred) (dst rs1 : Reg) (ul : Bool) (imm16 : BitVec 16) :
    Statement (.asuci p dst rs1 ul imm16) :=
  ⟨(encI_fields 0x54 p dst rs1 ul imm16).2.1, encI_used 0x54 p dst rs1 ul imm16⟩

theorem aandi (p : Pred) (dst rs1 : Reg) (ul : Bool) (imm16 : BitVec 16) :
    Statement (.aandi p dst rs1 ul imm16) :=
  ⟨(encI_fields 0x55 p dst rs1 ul imm16).2.1, encI_used 0x55 p dst rs1 ul imm16⟩

theorem aiori (p : Pred) (dst rs1 : Reg) (ul : Bool) (imm16 : BitVec 16) :
    Statement (.aiori p dst rs1 ul imm16) :=
  ⟨(encI_fields 0x56 p dst rs1 ul imm16).2.1, encI_used 0x56 p dst rs1 ul imm16⟩

theorem axori (p : Pred) (dst rs1 : Reg) (ul : Bool) (imm16 : BitVec 16) :
    Statement (.axori p dst rs1 ul imm16) :=
  ⟨(encI_fields 0x57 p dst rs1 ul imm16).2.1, encI_used 0x57 p dst rs1 ul imm16⟩

theorem aslci (p : Pred) (dst rs1 : Reg) (ul : Bool) (imm16 : BitVec 16) :
    Statement (.aslci p dst rs1 ul imm16) :=
  ⟨(encI_fields 0x58 p dst rs1 ul imm16).2.1, encI_used 0x58 p dst rs1 ul imm16⟩

theorem asli (p : Pred) (dst rs1 : Reg) (ul : Bool) (imm16 : BitVec 16) :
    Statement (.asli p dst rs1 ul imm16) :=
  ⟨(encI_fields 0x59 p dst rs1 ul imm16).2.1, encI_used 0x59 p dst rs1 ul imm16⟩

theorem asrci (p : Pred) (dst rs1 : Reg) (ul : Bool) (imm16 : BitVec 16) :
    Statement (.asrci p dst rs1 ul imm16) :=
  ⟨(encI_fields 0x5A p dst rs1 ul imm16).2.1, encI_used 0x5A p dst rs1 ul imm16⟩

theorem asri (p : Pred) (dst rs1 : Reg) (ul : Bool) (imm16 : BitVec 16) :
    Statement (.asri p dst rs1 ul imm16) :=
  ⟨(encI_fields 0x5B p dst rs1 ul imm16).2.1, encI_used 0x5B p dst rs1 ul imm16⟩

theorem asari (p : Pred) (dst rs1 : Reg) (ul : Bool) (imm16 : BitVec 16) :
    Statement (.asari p dst rs1 ul imm16) :=
  ⟨(encI_fields 0x5C p dst rs1 ul imm16).2.1, encI_used 0x5C p dst rs1 ul imm16⟩

theorem amul (p : Pred) (dst rs1 rs2 : Reg) :
    Statement (.amul p dst rs1 rs2) :=
  ⟨(encR_fields 0x60 p dst rs1 rs2).2.1, encR_used 0x60 p dst rs1 rs2⟩

theorem amuls (p : Pred) (dst rs1 rs2 : Reg) :
    Statement (.amuls p dst rs1 rs2) :=
  ⟨(encR_fields 0x61 p dst rs1 rs2).2.1, encR_used 0x61 p dst rs1 rs2⟩

theorem adiv (p : Pred) (dst rs1 rs2 : Reg) :
    Statement (.adiv p dst rs1 rs2) :=
  ⟨(encR_fields 0x62 p dst rs1 rs2).2.1, encR_used 0x62 p dst rs1 rs2⟩

theorem adivs (p : Pred) (dst rs1 rs2 : Reg) :
    Statement (.adivs p dst rs1 rs2) :=
  ⟨(encR_fields 0x63 p dst rs1 rs2).2.1, encR_used 0x63 p dst rs1 rs2⟩

theorem amulf (p : Pred) (dst rs1 rs2 : Reg) :
    Statement (.amulf p dst rs1 rs2) :=
  ⟨(encR_fields 0x68 p dst rs1 rs2).2.1, encR_used 0x68 p dst rs1 rs2⟩

theorem adivf (p : Pred) (dst rs1 rs2 : Reg) :
    Statement (.adivf p dst rs1 rs2) :=
  ⟨(encR_fields 0x69 p dst rs1 rs2).2.1, encR_used 0x69 p dst rs1 rs2⟩

theorem amuli (p : Pred) (dst rs1 : Reg) (ul : Bool) (imm16 : BitVec 16) :
    Statement (.amuli p dst rs1 ul imm16) :=
  ⟨(encI_fields 0x70 p dst rs1 ul imm16).2.1, encI_used 0x70 p dst rs1 ul imm16⟩

theorem amulsi (p : Pred) (dst rs1 : Reg) (ul : Bool) (imm16 : BitVec 16) :
    Statement (.amulsi p dst rs1 ul imm16) :=
  ⟨(encI_fields 0x71 p dst rs1 ul imm16).2.1, encI_used 0x71 p dst rs1 ul imm16⟩

theorem adivi (p : Pred) (dst rs1 : Reg) (ul : Bool) (imm16 : BitVec 16) :
    Statement (.adivi p dst rs1 ul imm16) :=
  ⟨(encI_fields 0x72 p dst rs1 ul imm16).2.1, encI_used 0x72 p dst rs1 ul imm16⟩

theorem adivsi (p : Pred) (dst rs1 : Reg) (ul : Bool) (imm16 : BitVec 16) :
    Statement (.adivsi p dst rs1 ul imm16) :=
  ⟨(encI_fields 0x73 p dst rs1 ul imm16).2.1, encI_used 0x73 p dst rs1 ul imm16⟩

theorem amulfi (p : Pred) (dst rs1 : Reg) (ul : Bool) (imm16 : BitVec 16) :
    Statement (.amulfi p dst rs1 ul imm16) :=
  ⟨(encI_fields 0x78 p dst rs1 ul imm16).2.1, encI_used 0x78 p dst rs1 ul imm16⟩

theorem adivfi (p : Pred) (dst rs1 : Reg) (ul : Bool) (imm16 : BitVec 16) :
    Statement (.adivfi p dst rs1 ul imm16) :=
  ⟨(encI_fields 0x79 p dst rs1 ul imm16).2.1, encI_used 0x79 p dst rs1 ul imm16⟩

theorem ld (p : Pred) (dst rs1 : Reg) (imm17 : BitVec 17) :
    Statement (.ld p dst rs1 imm17) :=
  ⟨(encM_fields 0x80 p dst rs1 imm17).2.1, encM_used 0x80 p dst rs1 imm17⟩

theorem ldu (p : Pred) (dst rs1 : Reg) (imm17 : BitVec 17) :
    Statement (.ldu p dst rs1 imm17) :=
  ⟨(encM_fields 0x81 p dst rs1 imm17).2.1, encM_used 0x81 p dst rs1 imm17⟩

theorem lds (p : Pred) (dst rs1 : Reg) (imm17 : BitVec 17) :
    Statement (.lds p dst rs1 imm17) :=
  ⟨(encM_fields 0x82 p dst rs1 imm17).2.1, encM_used 0x82 p dst rs1 imm17⟩

theorem pop (p : Pred) (dst rs1 : Reg) (imm17 : BitVec 17) :
    Statement (.pop p dst rs1 imm17) :=
  ⟨(encM_fields 0x83 p dst rs1 imm17).2.1, encM_used 0x83 p dst rs1 imm17⟩

theorem str (p : Pred) (dst rs1 : Reg) (imm17 : BitVec 17) :
    Statement (.str p dst rs1 imm17) :=
  ⟨(encM_fields 0x88 p dst rs1 imm17).2.1, encM_used 0x88 p dst rs1 imm17⟩

theorem stu (p : Pred) (dst rs1 : Reg) (imm17 : BitVec 17) :
    Statement (.stu p dst rs1 imm17) :=
  ⟨(encM_fields 0x89 p dst rs1 imm17).2.1, encM_used 0x89 p dst rs1 imm17⟩

theorem sts (p : Pred) (dst rs1 : Reg) (imm17 : BitVec 17) :
    Statement (.sts p dst rs1 imm17) :=
  ⟨(encM_fields 0x8A p dst rs1 imm17).2.1, encM_used 0x8A p dst rs1 imm17⟩

theorem push (p : Pred) (dst rs1 : Reg) (imm17 : BitVec 17) :
    Statement (.push p dst rs1 imm17) :=
  ⟨(encM_fields 0x8B p dst rs1 imm17).2.1, encM_used 0x8B p dst rs1 imm17⟩

theorem ald (p : Pred) (dst rs1 : Reg) (imm17 : BitVec 17) :
    Statement (.ald p dst rs1 imm17) :=
  ⟨(encM_fields 0x90 p dst rs1 imm17).2.1, encM_used 0x90 p dst rs1 imm17⟩

theorem aldu (p : Pred) (dst rs1 : Reg) (imm17 : BitVec 17) :
    Statement (.aldu p dst rs1 imm17) :=
  ⟨(encM_fields 0x91 p dst rs1 imm17).2.1, encM_used 0x91 p dst rs1 imm17⟩

theorem alds (p : Pred) (dst rs1 : Reg) (imm17 : BitVec 17) :
    Statement (.alds p dst rs1 imm17) :=
  ⟨(encM_fields 0x92 p dst rs1 imm17).2.1, encM_used 0x92 p dst rs1 imm17⟩

theorem apop (p : Pred) (dst rs1 : Reg) (imm17 : BitVec 17) :
    Statement (.apop p dst rs1 imm17) :=
  ⟨(encM_fields 0x93 p dst rs1 imm17).2.1, encM_used 0x93 p dst rs1 imm17⟩

theorem srr (p : Pred) (dst : Reg) (imm16 : SrAddr) :
    Statement (.srr p dst imm16) :=
  ⟨(encI_fields 0xA0 p dst 0 false imm16).2.1, encI_sr_used 0xA0 p dst imm16⟩

theorem srw (p : Pred) (dst : Reg) (imm16 : SrAddr) :
    Statement (.srw p dst imm16) :=
  ⟨(encI_fields 0xA1 p dst 0 false imm16).2.1, encI_sr_used 0xA1 p dst imm16⟩

theorem trap (p : Pred) (imm16 : BitVec 16) :
    Statement (.trap p imm16) :=
  ⟨(encI_fields 0xA2 p 0 0 false imm16).2.1, encI_imm16_used 0xA2 p imm16⟩

theorem spc (p : Pred) (dstp : Pred) :
    Statement (.spc p dstp) :=
  ⟨(encP_fields 0xB0 p dstp 0 0).2.1, encP_dstp_used 0xB0 p dstp⟩

theorem spnc (p : Pred) (dstp : Pred) :
    Statement (.spnc p dstp) :=
  ⟨(encP_fields 0xB1 p dstp 0 0).2.1, encP_dstp_used 0xB1 p dstp⟩

theorem brc (p : Pred) (imm17 : BitVec 17) :
    Statement (.brc p imm17) :=
  ⟨(encB_fields 0xB2 p 0 0 imm17).2.1, encB_imm17_used 0xB2 p imm17⟩

theorem brnc (p : Pred) (imm17 : BitVec 17) :
    Statement (.brnc p imm17) :=
  ⟨(encB_fields 0xB3 p 0 0 imm17).2.1, encB_imm17_used 0xB3 p imm17⟩

theorem spe (p : Pred) (dstp : Pred) (rs1 rs2 : Reg) :
    Statement (.spe p dstp rs1 rs2) :=
  ⟨(encP_fields 0xC0 p dstp rs1 rs2).2.1, encP_used 0xC0 p dstp rs1 rs2⟩

theorem spne (p : Pred) (dstp : Pred) (rs1 rs2 : Reg) :
    Statement (.spne p dstp rs1 rs2) :=
  ⟨(encP_fields 0xC1 p dstp rs1 rs2).2.1, encP_used 0xC1 p dstp rs1 rs2⟩

theorem bre (p : Pred) (rs1 rs2 : Reg) (imm17 : BitVec 17) :
    Statement (.bre p rs1 rs2 imm17) :=
  ⟨(encB_fields 0xC2 p rs1 rs2 imm17).2.1, encB_used 0xC2 p rs1 rs2 imm17⟩

theorem brne (p : Pred) (rs1 rs2 : Reg) (imm17 : BitVec 17) :
    Statement (.brne p rs1 rs2 imm17) :=
  ⟨(encB_fields 0xC3 p rs1 rs2 imm17).2.1, encB_used 0xC3 p rs1 rs2 imm17⟩

theorem se (p : Pred) (dst rs1 rs2 : Reg) :
    Statement (.se p dst rs1 rs2) :=
  ⟨(encR_fields 0xC4 p dst rs1 rs2).2.1, encR_used 0xC4 p dst rs1 rs2⟩

theorem sne (p : Pred) (dst rs1 rs2 : Reg) :
    Statement (.sne p dst rs1 rs2) :=
  ⟨(encR_fields 0xC5 p dst rs1 rs2).2.1, encR_used 0xC5 p dst rs1 rs2⟩

theorem sei (p : Pred) (dst rs1 : Reg) (ul : Bool) (imm16 : BitVec 16) :
    Statement (.sei p dst rs1 ul imm16) :=
  ⟨(encI_fields 0xC6 p dst rs1 ul imm16).2.1, encI_used 0xC6 p dst rs1 ul imm16⟩

theorem snei (p : Pred) (dst rs1 : Reg) (ul : Bool) (imm16 : BitVec 16) :
    Statement (.snei p dst rs1 ul imm16) :=
  ⟨(encI_fields 0xC7 p dst rs1 ul imm16).2.1, encI_used 0xC7 p dst rs1 ul imm16⟩

theorem spl (p : Pred) (dstp : Pred) (rs1 rs2 : Reg) :
    Statement (.spl p dstp rs1 rs2) :=
  ⟨(encP_fields 0xD0 p dstp rs1 rs2).2.1, encP_used 0xD0 p dstp rs1 rs2⟩

theorem spnl (p : Pred) (dstp : Pred) (rs1 rs2 : Reg) :
    Statement (.spnl p dstp rs1 rs2) :=
  ⟨(encP_fields 0xD1 p dstp rs1 rs2).2.1, encP_used 0xD1 p dstp rs1 rs2⟩

theorem brl (p : Pred) (rs1 rs2 : Reg) (imm17 : BitVec 17) :
    Statement (.brl p rs1 rs2 imm17) :=
  ⟨(encB_fields 0xD2 p rs1 rs2 imm17).2.1, encB_used 0xD2 p rs1 rs2 imm17⟩

theorem brnl (p : Pred) (rs1 rs2 : Reg) (imm17 : BitVec 17) :
    Statement (.brnl p rs1 rs2 imm17) :=
  ⟨(encB_fields 0xD3 p rs1 rs2 imm17).2.1, encB_used 0xD3 p rs1 rs2 imm17⟩

theorem slt (p : Pred) (dst rs1 rs2 : Reg) :
    Statement (.slt p dst rs1 rs2) :=
  ⟨(encR_fields 0xD4 p dst rs1 rs2).2.1, encR_used 0xD4 p dst rs1 rs2⟩

theorem snlt (p : Pred) (dst rs1 rs2 : Reg) :
    Statement (.snlt p dst rs1 rs2) :=
  ⟨(encR_fields 0xD5 p dst rs1 rs2).2.1, encR_used 0xD5 p dst rs1 rs2⟩

theorem slti (p : Pred) (dst rs1 : Reg) (ul : Bool) (imm16 : BitVec 16) :
    Statement (.slti p dst rs1 ul imm16) :=
  ⟨(encI_fields 0xD6 p dst rs1 ul imm16).2.1, encI_used 0xD6 p dst rs1 ul imm16⟩

theorem snlti (p : Pred) (dst rs1 : Reg) (ul : Bool) (imm16 : BitVec 16) :
    Statement (.snlti p dst rs1 ul imm16) :=
  ⟨(encI_fields 0xD7 p dst rs1 ul imm16).2.1, encI_used 0xD7 p dst rs1 ul imm16⟩

theorem spg (p : Pred) (dstp : Pred) (rs1 rs2 : Reg) :
    Statement (.spg p dstp rs1 rs2) :=
  ⟨(encP_fields 0xE0 p dstp rs1 rs2).2.1, encP_used 0xE0 p dstp rs1 rs2⟩

theorem spng (p : Pred) (dstp : Pred) (rs1 rs2 : Reg) :
    Statement (.spng p dstp rs1 rs2) :=
  ⟨(encP_fields 0xE1 p dstp rs1 rs2).2.1, encP_used 0xE1 p dstp rs1 rs2⟩

theorem brg (p : Pred) (rs1 rs2 : Reg) (imm17 : BitVec 17) :
    Statement (.brg p rs1 rs2 imm17) :=
  ⟨(encB_fields 0xE2 p rs1 rs2 imm17).2.1, encB_used 0xE2 p rs1 rs2 imm17⟩

theorem brng (p : Pred) (rs1 rs2 : Reg) (imm17 : BitVec 17) :
    Statement (.brng p rs1 rs2 imm17) :=
  ⟨(encB_fields 0xE3 p rs1 rs2 imm17).2.1, encB_used 0xE3 p rs1 rs2 imm17⟩

theorem sgt (p : Pred) (dst rs1 rs2 : Reg) :
    Statement (.sgt p dst rs1 rs2) :=
  ⟨(encR_fields 0xE4 p dst rs1 rs2).2.1, encR_used 0xE4 p dst rs1 rs2⟩

theorem sngt (p : Pred) (dst rs1 rs2 : Reg) :
    Statement (.sngt p dst rs1 rs2) :=
  ⟨(encR_fields 0xE5 p dst rs1 rs2).2.1, encR_used 0xE5 p dst rs1 rs2⟩

theorem sgti (p : Pred) (dst rs1 : Reg) (ul : Bool) (imm16 : BitVec 16) :
    Statement (.sgti p dst rs1 ul imm16) :=
  ⟨(encI_fields 0xE6 p dst rs1 ul imm16).2.1, encI_used 0xE6 p dst rs1 ul imm16⟩

theorem sngti (p : Pred) (dst rs1 : Reg) (ul : Bool) (imm16 : BitVec 16) :
    Statement (.sngti p dst rs1 ul imm16) :=
  ⟨(encI_fields 0xE7 p dst rs1 ul imm16).2.1, encI_used 0xE7 p dst rs1 ul imm16⟩

theorem spt (p : Pred) (dstp : Pred) :
    Statement (.spt p dstp) :=
  ⟨(encP_fields 0xF0 p dstp 0 0).2.1, encP_dstp_used 0xF0 p dstp⟩

theorem spf (p : Pred) (dstp : Pred) :
    Statement (.spf p dstp) :=
  ⟨(encP_fields 0xF1 p dstp 0 0).2.1, encP_dstp_used 0xF1 p dstp⟩

theorem br (p : Pred) (imm17 : BitVec 17) :
    Statement (.br p imm17) :=
  ⟨(encB_fields 0xF2 p 0 0 imm17).2.1, encB_imm17_used 0xF2 p imm17⟩

theorem set (p : Pred) (dst : Reg) :
    Statement (.set p dst) :=
  ⟨(encR_fields 0xF4 p dst 0 0).2.1, encR_dst_used 0xF4 p dst⟩

theorem clr (p : Pred) (dst : Reg) :
    Statement (.clr p dst) :=
  ⟨(encR_fields 0xF5 p dst 0 0).2.1, encR_dst_used 0xF5 p dst⟩

theorem jmp (p : Pred) (rs1 : Reg) (imm17 : BitVec 17) :
    Statement (.jmp p rs1 imm17) :=
  ⟨(encJ_fields 0xFD p rs1 imm17).2.1, encJ_used 0xFD p rs1 imm17⟩

theorem jr (p : Pred) (rs1 : Reg) (imm17 : BitVec 17) :
    Statement (.jr p rs1 imm17) :=
  ⟨(encJ_fields 0xFE p rs1 imm17).2.1, encJ_used 0xFE p rs1 imm17⟩

theorem iret (p : Pred) :
    Statement (.iret p) :=
  ⟨(encJ_fields 0xFF p 0 0).2.1, encJ_none_used 0xFF p⟩

end Sys2Proof.Laws.EncodedBits
end

