-- ==== Sys2Proof/Tests/Slice0.lean ====
section
/-! SUPPORT. Tests, and a witness for the hypotheses of every statement. The expected results are the spec's own worked
examples, or worked by hand from the rule named. -/

namespace Sys2Proof.Tests

open Sys2Proof.Machine

/-! ### Small states -/

/-- `pc = 0x00000100` and the registers given; all else as after reset (the spec's examples start so). -/
def start (regs : List (Reg × Dword)) : State :=
  regs.foldl (fun s r => s.setReg r.1 r.2) { State.reset with pc := 0x100 }

/-- Memory that holds the words given. -/
def words (ws : List (Addr × Word)) : Memory := ws.foldl (fun m w => writeWord m w.1 w.2) []

/-- Predicates with the values given; the others as after reset. -/
def predicates (qs : List (Pred × Bool)) : Vector Bool 8 :=
  (qs.foldl (fun s q => s.setPred q.1 q.2) State.reset).preds

/-- The next state of one instruction, if there is one. -/
def run (i : Instr) (s : State) : Option State :=
  match exec i s with
  | .next t => some t
  | .fault _ => none
  | .refused _ => none

/-- The next state of one step, if there is one. -/
def stepped (s : State) : Option State :=
  match step s with
  | .next t => some t
  | .fault _ => none
  | .refused _ => none

/-- What holds at each address of a list. -/
theorem at_each {q : Addr → Prop} [DecidablePred q] {ws : List Addr} (h : ws.all (fun a => decide (q a)) = true) :
    ∀ a ∈ ws, q a := by simpa using h

/-- The state the witnesses below are about. -/
def sample : State :=
  { start [(2, 0xFFFFFFF0), (3, 0x3000), (4, 7), (5, 33), (6, 32)] with
    preds := predicates [(1, true)]
    carry := true
    pcSave := 0x345
    mem := words [(0x100, 0x1001), (0x101, 0x80C), (0x3000, 0xBEEF)] }

/-- The same state in a system with devices: device 3 at the three words 0x3000 to 0x3002, nothing at the word 0x3009, and
two status registers beyond those of base AA32. -/
def platform : State :=
  { sample with
    memoryMap := [⟨0x3000, 0x3002, .device 3⟩, ⟨0x3009, 0x3009, .absent⟩]
    extraSr := [(12, 7), (0xFFFF, 3)] }

/-! ### Decoding: one word of every opcode, as the spec's example of its rule encodes it -/

theorem test_decode_adding :
    decode 0x000080C1001 = .instr (.add 0 2 3 4) ∧
      decode 0x000040C1011 = .instr (.addi 0 2 3 false 1) ∧
      decode 0x000080C1041 = .instr (.aadd 0 2 3 4) ∧
      decode 0x048D20C1051 = .instr (.aaddi 0 2 3 true 0x1234) ∧
      decode 0x000080C1002 = .instr (.adc 0 2 3 4) ∧
      decode 0x000000C1012 = .instr (.adci 0 2 3 false 0) ∧
      decode 0x000080C1042 = .instr (.aadc 0 2 3 4) ∧
      decode 0x000000C1052 = .instr (.aadci 0 2 3 false 0) := by
  decide

theorem test_decode_subtracting :
    decode 0x000080C1003 = .instr (.sub 0 2 3 4) ∧
      decode 0x0000C0C1013 = .instr (.subi 0 2 3 false 3) ∧
      decode 0x000080C1043 = .instr (.asub 0 2 3 4) ∧
      decode 0x000060C1053 = .instr (.asubi 0 2 3 true 1) ∧
      decode 0x000080C1004 = .instr (.suc 0 2 3 4) ∧
      decode 0x000140C1014 = .instr (.suci 0 2 3 false 5) ∧
      decode 0x000080C1044 = .instr (.asuc 0 2 3 4) ∧
      decode 0x000000C1054 = .instr (.asuci 0 2 3 false 0) := by
  decide

theorem test_decode_and :
    decode 0x000080C1005 = .instr (.and 0 2 3 4) ∧
      decode 0x3FC000C1015 = .instr (.andi 0 2 3 false 0xFF00) ∧
      decode 0x000080C1045 = .instr (.aand 0 2 3 4) ∧
      decode 0x3FFFE0C1055 = .instr (.aandi 0 2 3 true 0xFFFF) := by
  decide

theorem test_decode_ior :
    decode 0x000080C1006 = .instr (.ior 0 2 3 4) ∧
      decode 0x2FBBC001016 = .instr (.iori 0 2 0 false 0xBEEF) ∧
      decode 0x000080C1046 = .instr (.aior 0 2 3 4) ∧
      decode 0x37AB60C1056 = .instr (.aiori 0 2 3 true 0xDEAD) := by
  decide

theorem test_decode_xor :
    decode 0x000080C1007 = .instr (.xor 0 2 3 4) ∧
      decode 0x3FFFC0C1017 = .instr (.xori 0 2 3 false 0xFFFF) ∧
      decode 0x000080C1047 = .instr (.axor 0 2 3 4) ∧
      decode 0x000060C1057 = .instr (.axori 0 2 3 true 1) := by
  decide

theorem test_decode_slc :
    decode 0x000080C1008 = .instr (.slc 0 2 3 4) ∧
      decode 0x000100C1018 = .instr (.slci 0 2 3 false 4) ∧
      decode 0x000080C1048 = .instr (.aslc 0 2 3 4) ∧
      decode 0x000040C1058 = .instr (.aslci 0 2 3 false 1) := by
  decide

theorem test_decode_sl :
    decode 0x000080C1009 = .instr (.sl 0 2 3 4) ∧
      decode 0x0007C0C1019 = .instr (.sli 0 2 3 false 0x1F) ∧
      decode 0x000080C1049 = .instr (.asl 0 2 3 4) ∧
      decode 0x000040C1059 = .instr (.asli 0 2 3 false 1) := by
  decide

theorem test_decode_src :
    decode 0x000080C100A = .instr (.src 0 2 3 4) ∧
      decode 0x000100C101A = .instr (.srci 0 2 3 false 4) ∧
      decode 0x000080C104A = .instr (.asrc 0 2 3 4) ∧
      decode 0x000040C105A = .instr (.asrci 0 2 3 false 1) := by
  decide

theorem test_decode_sr :
    decode 0x000080C100B = .instr (.sr 0 2 3 4) ∧
      decode 0x0007C0C101B = .instr (.sri 0 2 3 false 0x1F) ∧
      decode 0x000080C104B = .instr (.asr 0 2 3 4) ∧
      decode 0x000040C105B = .instr (.asri 0 2 3 false 1) := by
  decide

theorem test_decode_sar :
    decode 0x000080C100C = .instr (.sar 0 2 3 4) ∧
      decode 0x0007C0C101C = .instr (.sari 0 2 3 false 0x1F) ∧
      decode 0x000080C104C = .instr (.asar 0 2 3 4) ∧
      decode 0x0007C0C105C = .instr (.asari 0 2 3 false 0x1F) := by
  decide

theorem test_decode_mul :
    decode 0x000080C1020 = .instr (.mul 0 2 3 4) ∧
      decode 0x3FFFC0C1030 = .instr (.muli 0 2 3 false 0xFFFF) ∧
      decode 0x000080C1060 = .instr (.amul 0 2 3 4) ∧
      decode 0x0001C0C1070 = .instr (.amuli 0 2 3 false 7) := by
  decide

theorem test_decode_muls :
    decode 0x000080C1021 = .instr (.muls 0 2 3 4) ∧
      decode 0x3FFF40C1031 = .instr (.mulsi 0 2 3 false 0xFFFD) ∧
      decode 0x000080C1061 = .instr (.amuls 0 2 3 4) ∧
      decode 0x3FFFC0C1071 = .instr (.amulsi 0 2 3 false 0xFFFF) := by
  decide

theorem test_decode_div :
    decode 0x000080C1022 = .instr (.div 0 2 3 4) ∧
      decode 0x0001C0C1032 = .instr (.divi 0 2 3 false 7) ∧
      decode 0x000080C1062 = .instr (.adiv 0 2 3 4) ∧
      decode 0x0000C0C1072 = .instr (.adivi 0 2 3 false 3) := by
  decide

theorem test_decode_divs :
    decode 0x000080C1023 = .instr (.divs 0 2 3 4) ∧
      decode 0x3FFF80C1033 = .instr (.divsi 0 2 3 false 0xFFFE) ∧
      decode 0x000080C1063 = .instr (.adivs 0 2 3 4) ∧
      decode 0x0000C0C1073 = .instr (.adivsi 0 2 3 false 3) := by
  decide

theorem test_decode_mulf :
    decode 0x000080C1028 = .instr (.mulf 0 2 3 4) ∧
      decode 0x200000C1038 = .instr (.mulfi 0 2 3 false 0x8000) ∧
      decode 0x000080C1068 = .instr (.amulf 0 2 3 4) ∧
      decode 0x0000A0C1078 = .instr (.amulfi 0 2 3 true 2) := by
  decide

theorem test_decode_divf :
    decode 0x000080C1029 = .instr (.divf 0 2 3 4) ∧
      decode 0x0000E0C1039 = .instr (.divfi 0 2 3 true 3) ∧
      decode 0x000080C1069 = .instr (.adivf 0 2 3 4) ∧
      decode 0x100000C1079 = .instr (.adivfi 0 2 3 false 0x4000) := by
  decide

theorem test_decode_predicates_of_flags :
    decode 0x000000008B0 = .instr (.spc 0 1) ∧
      decode 0x000000008B1 = .instr (.spnc 0 1) ∧
      decode 0x000000008F0 = .instr (.spt 0 1) ∧
      decode 0x000000009F1 = .instr (.spf 1 1) := by
  decide

theorem test_decode_predicates_of_equality :
    decode 0x000080C08C0 = .instr (.spe 0 1 3 4) ∧
      decode 0x000000C08C1 = .instr (.spne 0 1 3 0) := by
  decide

theorem test_decode_predicates_of_order :
    decode 0x000080C08D0 = .instr (.spl 0 1 3 4) ∧
      decode 0x000080C08D1 = .instr (.spnl 0 1 3 4) ∧
      decode 0x000080C08E0 = .instr (.spg 0 1 3 4) ∧
      decode 0x000080C08E1 = .instr (.spng 0 1 3 4) := by
  decide

theorem test_decode_loads :
    decode 0x000040C1080 = .instr (.ld 0 2 3 2) ∧
      decode 0x3FFFE0C1081 = .instr (.ldu 0 2 3 0x1FFFF) ∧
      decode 0x3FFFE0C1082 = .instr (.lds 0 2 3 0x1FFFF) ∧
      decode 0x000000C1083 = .instr (.pop 0 2 3 0) := by
  decide

theorem test_decode_stores :
    decode 0x000080C1088 = .instr (.str 0 2 3 4) ∧
      decode 0x000020C1089 = .instr (.stu 0 2 3 1) ∧
      decode 0x000000C108A = .instr (.sts 0 2 3 0) ∧
      decode 0x000000C108B = .instr (.push 0 2 3 0) := by
  decide

theorem test_decode_accumulating_loads :
    decode 0x000000C1090 = .instr (.ald 0 2 3 0) ∧
      decode 0x000000C1091 = .instr (.aldu 0 2 3 0) ∧
      decode 0x000000C1092 = .instr (.alds 0 2 3 0) ∧
      decode 0x000000C1093 = .instr (.apop 0 2 3 0) := by
  decide

theorem test_decode_branches_on_flags :
    decode 0x000200000B2 = .instr (.brc 0 0x10) ∧
      decode 0x000200000B3 = .instr (.brnc 0 0x10) ∧
      decode 0x000800000F2 = .instr (.br 0 0x40) := by
  decide

theorem test_decode_branches_on_equality :
    decode 0x3FFFC1018C2 = .instr (.bre 0 3 4 0x1FFFE) ∧
      decode 0x3FFF40018C3 = .instr (.brne 0 3 0 0x1FFFA) := by
  decide

theorem test_decode_branches_on_order :
    decode 0x000101018D2 = .instr (.brl 0 3 4 8) ∧
      decode 0x000101018D3 = .instr (.brnl 0 3 4 8) ∧
      decode 0x1FFFE1018E2 = .instr (.brg 0 3 4 0xFFFF) ∧
      decode 0x200001018E3 = .instr (.brng 0 3 4 0x10000) := by
  decide

theorem test_decode_jumps :
    decode 0x000000008FD = .instr (.jmp 0 1 0) ∧
      decode 0x000040018FE = .instr (.jr 0 3 2) ∧
      decode 0x000000000FF = .instr (.iret 0) := by
  decide

theorem test_decode_comparisons_of_equality :
    decode 0x000080C10C4 = .instr (.se 0 2 3 4) ∧
      decode 0x000000C10C5 = .instr (.sne 0 2 3 0) ∧
      decode 0x3FFFC0C10C6 = .instr (.sei 0 2 3 false 0xFFFF) ∧
      decode 0x048D20C10C7 = .instr (.snei 0 2 3 true 0x1234) ∧
      decode 0x000000010F4 = .instr (.set 0 2) ∧
      decode 0x000000010F5 = .instr (.clr 0 2) := by
  decide

theorem test_decode_comparisons_less :
    decode 0x000080C10D4 = .instr (.slt 0 2 3 4) ∧
      decode 0x000080C10D5 = .instr (.snlt 0 2 3 4) ∧
      decode 0x200000C10D6 = .instr (.slti 0 2 3 false 0x8000) ∧
      decode 0x000280C10D7 = .instr (.snlti 0 2 3 false 0xA) := by
  decide

theorem test_decode_comparisons_greater :
    decode 0x000080C10E4 = .instr (.sgt 0 2 3 4) ∧
      decode 0x000080C10E5 = .instr (.sngt 0 2 3 4) ∧
      decode 0x000060C10E6 = .instr (.sgti 0 2 3 true 1) ∧
      decode 0x001900C10E7 = .instr (.sngti 0 2 3 false 0x64) := by
  decide

theorem test_decode_system :
    decode 0x00000000000 = .instr (.nop 0) ∧
      decode 0x000000010A0 = .instr (.srr 0 2 0) ∧
      decode 0x0000C0010A1 = .instr (.srw 0 2 3) ∧
      decode 0x0000C0000A2 = .instr (.trap 0 3) := by
  decide

/-! ### One instruction: the example of its rule -/

/-- 40_arith_addsub_logic.md R160 to R167. -/
theorem test_adding :
    (run (.add 0 2 3 4) { start [(3, 0xFFFFFFFF), (4, 1)] with carry := false }).map
      (fun t => (t.reg 2, t.carry, t.pc)) = some (0, true, 0x104) ∧
    (run (.addi 0 2 3 false 1) { start [(3, 0x7FFFFFFF)] with carry := true }).map
      (fun t => (t.reg 2, t.carry, t.pc)) = some (0x80000000, false, 0x104) ∧
    (run (.aadd 0 2 3 4) { start [(2, 0xFFFFFFF0), (3, 0x10), (4, 0x20)] with
      carry := false, acarry := false }).map (fun t => (t.reg 2, t.carry, t.acarry, t.pc)) =
      some (0x20, false, true, 0x104) ∧
    (run (.aaddi 0 2 3 true 0x1234) { start [(2, 5), (3, 0xFFFF)] with carry := true, acarry := true }).map
      (fun t => (t.reg 2, t.carry, t.acarry, t.pc)) = some (0x12350004, false, false, 0x104) ∧
    (run (.adc 0 2 3 4) { start [(3, 0xFFFFFFFF), (4, 0xFFFFFFFF)] with carry := true }).map
      (fun t => (t.reg 2, t.carry, t.pc)) = some (0xFFFFFFFF, true, 0x104) ∧
    (run (.adci 0 2 3 false 0) { start [(3, 0)] with carry := true }).map (fun t => (t.reg 2, t.carry, t.pc)) =
      some (1, false, 0x104) ∧
    (run (.aadc 0 2 3 4) { start [(2, 1), (3, 2), (4, 3)] with carry := true, acarry := true }).map
      (fun t => (t.reg 2, t.carry, t.acarry, t.pc)) = some (7, false, false, 0x104) ∧
    (run (.aadci 0 2 3 false 0) { start [(2, 0xFFFFFFFF), (3, 0xFFFFFFFF)] with
      carry := true, acarry := false }).map (fun t => (t.reg 2, t.carry, t.acarry, t.pc)) =
      some (0xFFFFFFFF, true, false, 0x104) := by
  and_intros <;> decide

/-- 40_arith_addsub_logic.md R168 to R175. -/
theorem test_subtracting :
    (run (.sub 0 2 3 4) { start [(3, 0), (4, 1)] with carry := false }).map (fun t => (t.reg 2, t.carry, t.pc))
      = some (0xFFFFFFFF, true, 0x104) ∧
    (run (.subi 0 2 3 false 3) { start [(3, 0xA)] with carry := true }).map (fun t => (t.reg 2, t.carry, t.pc))
      = some (7, false, 0x104) ∧
    (run (.asub 0 2 3 4) { start [(2, 0x64), (3, 7), (4, 9)] with carry := false, acarry := false }).map
      (fun t => (t.reg 2, t.carry, t.acarry, t.pc)) = some (0x62, true, true, 0x104) ∧
    (run (.asubi 0 2 3 true 1) { start [(2, 0x10), (3, 0x20000)] with carry := false, acarry := false }).map
      (fun t => (t.reg 2, t.carry, t.acarry, t.pc)) = some (0x10010, false, false, 0x104) ∧
    (run (.suc 0 2 3 4) { start [(3, 0), (4, 0xFFFFFFFF)] with carry := true }).map
      (fun t => (t.reg 2, t.carry, t.pc)) = some (0, true, 0x104) ∧
    (run (.suci 0 2 3 false 5) { start [(3, 5)] with carry := true }).map (fun t => (t.reg 2, t.carry, t.pc)) =
      some (0xFFFFFFFF, true, 0x104) ∧
    (run (.asuc 0 2 3 4) { start [(2, 1), (3, 9), (4, 4)] with carry := true, acarry := false }).map
      (fun t => (t.reg 2, t.carry, t.acarry, t.pc)) = some (5, false, false, 0x104) ∧
    (run (.asuci 0 2 3 false 0) { start [(2, 2), (3, 0)] with carry := true, acarry := false }).map
      (fun t => (t.reg 2, t.carry, t.acarry, t.pc)) = some (1, true, true, 0x104) := by
  and_intros <;> decide

/-- R176 to R179. -/
theorem test_and :
    (run (.and 0 2 3 4) { start [(3, 0xF0F0F0F0), (4, 0xFF00FF00)] with carry := true }).map
      (fun t => (t.reg 2, t.carry, t.pc)) = some (0xF000F000, true, 0x104) ∧
    (run (.andi 0 2 3 false 0xFF00) { start [(3, 0x12345678)] with carry := true }).map
      (fun t => (t.reg 2, t.carry, t.pc)) = some (0x5600, true, 0x104) ∧
    (run (.aand 0 2 3 4) { start [(2, 0xFFFFFFFF), (3, 0xFF), (4, 0xF)] with
      carry := true, acarry := false }).map (fun t => (t.reg 2, t.carry, t.acarry, t.pc)) =
      some (0xE, true, true, 0x104) ∧
    (run (.aandi 0 2 3 true 0xFFFF) { start [(2, 1), (3, 0x12345678)] with acarry := true }).map
      (fun t => (t.reg 2, t.acarry, t.pc)) = some (0x12340001, false, 0x104) := by
  and_intros <;> decide

/-- R180 to R183. -/
theorem test_ior :
    (run (.ior 0 2 3 4) { start [(3, 0xF0F0F0F0), (4, 0xF0F0000)] with carry := true }).map
      (fun t => (t.reg 2, t.carry, t.pc)) = some (0xFFFFF0F0, true, 0x104) ∧
    (run (.iori 0 2 0 false 0xBEEF) (start [])).map (fun t => (t.reg 2, t.pc)) = some (0xBEEF, 0x104) ∧
    (run (.aior 0 2 3 4) { start [(2, 0x80000000), (3, 0x80000000), (4, 1)] with acarry := false }).map
      (fun t => (t.reg 2, t.acarry, t.pc)) = some (1, true, 0x104) ∧
    (run (.aiori 0 2 3 true 0xDEAD) { start [(2, 1), (3, 0)] with acarry := true }).map
      (fun t => (t.reg 2, t.acarry, t.pc)) = some (0xDEAD0001, false, 0x104) := by
  and_intros <;> decide

/-- R184 to R187. -/
theorem test_xor :
    (run (.xor 0 2 3 4) { start [(3, 0xAAAAAAAA), (4, 0xFFFFFFFF)] with carry := true }).map
      (fun t => (t.reg 2, t.carry, t.pc)) = some (0x55555555, true, 0x104) ∧
    (run (.xori 0 2 3 false 0xFFFF) (start [(3, 0xFFFF)])).map (fun t => (t.reg 2, t.pc)) = some (0, 0x104) ∧
    (run (.axor 0 2 3 4) { start [(2, 1), (3, 0xFF), (4, 0xF)] with acarry := true }).map
      (fun t => (t.reg 2, t.acarry, t.pc)) = some (0xF1, false, 0x104) ∧
    (run (.axori 0 2 3 true 1) { start [(2, 0xFFFFFFFF), (3, 0)] with acarry := false }).map
      (fun t => (t.reg 2, t.acarry, t.pc)) = some (0xFFFF, true, 0x104) := by
  and_intros <;> decide

/-- 41_arith_shift.md R205 to R208. -/
theorem test_slc :
    (run (.slc 0 2 3 4) { start [(3, 0x80000001), (4, 1)] with carry := true }).map
      (fun t => (t.reg 2, t.carry, t.pc)) = some (3, true, 0x104) ∧
    (run (.slci 0 2 3 false 4) { start [(3, 0x40000000)] with carry := true }).map
      (fun t => (t.reg 2, t.carry, t.pc)) = some (8, false, 0x104) ∧
    (run (.aslc 0 2 3 4) { start [(2, 0x10), (3, 0x80000000), (4, 1)] with carry := false, acarry := true }).map
      (fun t => (t.reg 2, t.carry, t.acarry, t.pc)) = some (0x10, true, false, 0x104) ∧
    (run (.aslci 0 2 3 false 1) { start [(2, 0xFFFFFFFF), (3, 3)] with carry := true, acarry := false }).map
      (fun t => (t.reg 2, t.carry, t.acarry, t.pc)) = some (6, false, true, 0x104) := by
  simp only [run, exec, execSlc, execSlci, execAslc, execAslci, shAmt]
  cases Config.shamtMask5 <;> and_intros <;> decide

/-- R209 to R212. -/
theorem test_sl :
    (run (.sl 0 2 3 4) { start [(3, 0x80000001), (4, 4)] with carry := true }).map
      (fun t => (t.reg 2, t.carry, t.pc)) = some (0x10, true, 0x104) ∧
    (run (.sli 0 2 3 false 0x1F) (start [(3, 1)])).map (fun t => (t.reg 2, t.pc)) = some (0x80000000, 0x104) ∧
    (run (.asl 0 2 3 4) { start [(2, 1), (3, 3), (4, 2)] with acarry := true }).map
      (fun t => (t.reg 2, t.acarry, t.pc)) = some (0xD, false, 0x104) ∧
    (run (.asli 0 2 3 false 1) { start [(2, 0x80000000), (3, 0x40000000)] with acarry := false }).map
      (fun t => (t.reg 2, t.acarry, t.pc)) = some (0, true, 0x104) := by
  simp only [run, exec, execSl, execSli, execAsl, execAsli, shAmt]
  cases Config.shamtMask5 <;> and_intros <;> decide

/-- R213 to R216. -/
theorem test_src :
    (run (.src 0 2 3 4) { start [(3, 0x80000001), (4, 1)] with carry := true }).map
      (fun t => (t.reg 2, t.carry, t.pc)) = some (0xC0000000, true, 0x104) ∧
    (run (.srci 0 2 3 false 4) { start [(3, 0xF)] with carry := true }).map (fun t => (t.reg 2, t.carry, t.pc))
      = some (0x10000000, true, 0x104) ∧
    (run (.asrc 0 2 3 4) { start [(2, 1), (3, 2), (4, 1)] with carry := true, acarry := false }).map
      (fun t => (t.reg 2, t.carry, t.acarry, t.pc)) = some (0x80000002, false, false, 0x104) ∧
    (run (.asrci 0 2 3 false 1) { start [(2, 0x80000000), (3, 1)] with carry := true, acarry := false }).map
      (fun t => (t.reg 2, t.carry, t.acarry, t.pc)) = some (0, true, true, 0x104) := by
  simp only [run, exec, execSrc, execSrci, execAsrc, execAsrci, shAmt]
  cases Config.shamtMask5 <;> and_intros <;> decide

/-- R217 to R220. -/
theorem test_sr :
    (run (.sr 0 2 3 4) { start [(3, 0x80000001), (4, 4)] with carry := true }).map
      (fun t => (t.reg 2, t.carry, t.pc)) = some (0x8000000, true, 0x104) ∧
    (run (.sri 0 2 3 false 0x1F) (start [(3, 0x80000000)])).map (fun t => (t.reg 2, t.pc)) = some (1, 0x104) ∧
    (run (.asr 0 2 3 4) { start [(2, 1), (3, 0x100), (4, 4)] with acarry := true }).map
      (fun t => (t.reg 2, t.acarry, t.pc)) = some (0x11, false, 0x104) ∧
    (run (.asri 0 2 3 false 1) { start [(2, 0xFFFFFFFF), (3, 2)] with acarry := false }).map
      (fun t => (t.reg 2, t.acarry, t.pc)) = some (0, true, 0x104) := by
  simp only [run, exec, execSr, execSri, execAsr, execAsri, shAmt]
  cases Config.shamtMask5 <;> and_intros <;> decide

/-- R221 to R224. -/
theorem test_sar :
    (run (.sar 0 2 3 4) { start [(3, 0x80000001), (4, 4)] with carry := true }).map
      (fun t => (t.reg 2, t.carry, t.pc)) = some (0xF8000000, true, 0x104) ∧
    (run (.sari 0 2 3 false 0x1F) (start [(3, 0x7FFFFFFF)])).map (fun t => (t.reg 2, t.pc)) = some (0, 0x104) ∧
    (run (.asar 0 2 3 4) { start [(2, 5), (3, 0xFFFFFFF8), (4, 1)] with acarry := false }).map
      (fun t => (t.reg 2, t.acarry, t.pc)) = some (1, true, 0x104) ∧
    (run (.asari 0 2 3 false 0x1F) { start [(2, 0), (3, 0x80000000)] with acarry := true }).map
      (fun t => (t.reg 2, t.acarry, t.pc)) = some (0xFFFFFFFF, false, 0x104) := by
  simp only [run, exec, execSar, execSari, execAsar, execAsari, shAmt]
  cases Config.shamtMask5 <;> and_intros <;> decide

/-- 42_arith_muldiv.md R240 to R243. -/
theorem test_mul :
    (run (.mul 0 2 3 4) { start [(3, 0xFFFFFFFF), (4, 0xFFFFFFFF)] with mulms := 0 }).map
      (fun t => (t.reg 2, t.mulms, t.pc)) = some (1, 0xFFFFFFFE, 0x104) ∧
    (run (.muli 0 2 3 false 0xFFFF) { start [(3, 0x10000)] with mulms := 7 }).map
      (fun t => (t.reg 2, t.mulms, t.pc)) = some (0xFFFF0000, 0, 0x104) ∧
    (run (.amul 0 2 3 4) { start [(2, 0xFFFFFFFF), (3, 0x80000000), (4, 2)] with
      mulms := 0, acarry := false }).map (fun t => (t.reg 2, t.mulms, t.acarry, t.pc)) =
      some (0xFFFFFFFF, 1, false, 0x104) ∧
    (run (.amuli 0 2 3 false 7) { start [(2, 0xA), (3, 6)] with mulms := 9, acarry := true }).map
      (fun t => (t.reg 2, t.mulms, t.acarry, t.pc)) = some (0x34, 0, false, 0x104) := by
  and_intros <;> decide

/-- R244 to R247. -/
theorem test_muls :
    (run (.muls 0 2 3 4) { start [(3, 0xFFFFFFFE), (4, 3)] with mulms := 0x55 }).map
      (fun t => (t.reg 2, t.pc, t.mulms)) = some (0xFFFFFFFA, 0x104, 0x55) ∧
    (run (.mulsi 0 2 3 false 0xFFFD) { start [(3, 7)] with mulms := 0x55 }).map
      (fun t => (t.reg 2, t.pc, t.mulms)) = some (0xFFFFFFEB, 0x104, 0x55) ∧
    (run (.amuls 0 2 3 4) { start [(2, 0x64), (3, 0xFFFFFFFF), (4, 5)] with acarry := false }).map
      (fun t => (t.reg 2, t.acarry, t.pc)) = some (0x5F, true, 0x104) ∧
    (run (.amulsi 0 2 3 false 0xFFFF) { start [(2, 1), (3, 2)] with acarry := false }).map
      (fun t => (t.reg 2, t.acarry, t.pc)) = some (0xFFFFFFFF, false, 0x104) := by
  and_intros <;> decide

/-- R248 to R251. -/
theorem test_div :
    (run (.div 0 2 3 4) { start [(3, 0), (4, 2)] with divmsi := 5, divmso := 0 }).map
      (fun t => (t.reg 2, t.divmso, t.pc)) = some (0x80000000, 2, 0x104) ∧
    (run (.divi 0 2 3 false 7) { start [(3, 0x64)] with divmsi := 0, divmso := 0x55 }).map
      (fun t => (t.reg 2, t.divmso, t.pc)) = some (0xE, 0, 0x104) ∧
    (run (.adiv 0 2 3 4) { start [(2, 5), (3, 8), (4, 0x10)] with
      divmsi := 3, divmso := 0, acarry := true }).map (fun t => (t.reg 2, t.divmso, t.acarry, t.pc)) =
      some (0x30000005, 0, false, 0x104) ∧
    (run (.adivi 0 2 3 false 3) { start [(2, 0xFFFFFFFF), (3, 9)] with
      divmsi := 0, divmso := 1, acarry := false }).map (fun t => (t.reg 2, t.divmso, t.acarry, t.pc)) =
      some (2, 0, true, 0x104) := by
  and_intros <;> decide

/-- R252 to R255. -/
theorem test_divs :
    (run (.divs 0 2 3 4) { start [(3, 0xFFFFFFF9), (4, 2)] with divmsi := 5, divmso := 6 }).map
      (fun t => (t.reg 2, t.pc, t.divmso)) = some (0xFFFFFFFD, 0x104, 6) ∧
    (run (.divsi 0 2 3 false 0xFFFE) (start [(3, 7)])).map (fun t => (t.reg 2, t.pc)) = some (0xFFFFFFFD, 0x104) ∧
    (run (.adivs 0 2 3 4) { start [(2, 0xA), (3, 0x80000000), (4, 0xFFFFFFFF)] with acarry := false }).map
      (fun t => (t.reg 2, t.acarry, t.pc)) = some (0x8000000A, false, 0x104) ∧
    (run (.adivsi 0 2 3 false 3) { start [(2, 1), (3, 0xFFFFFFF6)] with acarry := false }).map
      (fun t => (t.reg 2, t.acarry, t.pc)) = some (0xFFFFFFFE, false, 0x104) := by
  and_intros <;> decide

/-- R256 to R259. -/
theorem test_mulf :
    (run (.mulf 0 2 3 4) { start [(3, 0x18000), (4, 0x20000)] with mulms := 0x55 }).map
      (fun t => (t.reg 2, t.pc, t.mulms)) = some (0x30000, 0x104, 0x55) ∧
    (run (.mulfi 0 2 3 false 0x8000) { start [(3, 0x30000)] with mulms := 0x55 }).map
      (fun t => (t.reg 2, t.pc, t.mulms)) = some (0xFFFE8000, 0x104, 0x55) ∧
    (run (.amulf 0 2 3 4) { start [(2, 0x10000), (3, 0xFFFF0000), (4, 0x8000)] with acarry := false }).map
      (fun t => (t.reg 2, t.acarry, t.pc)) = some (0x8000, true, 0x104) ∧
    (run (.amulfi 0 2 3 true 2) { start [(2, 0), (3, 0x28000)] with acarry := true }).map
      (fun t => (t.reg 2, t.acarry, t.pc)) = some (0x50000, false, 0x104) := by
  and_intros <;> decide

/-- R260 to R263. -/
theorem test_divf :
    (run (.divf 0 2 3 4) (start [(3, 0x30000), (4, 0x20000)])).map (fun t => (t.reg 2, t.pc)) =
      some (0x18000, 0x104) ∧
    (run (.divfi 0 2 3 true 3) (start [(3, 0xFFFF0000)])).map (fun t => (t.reg 2, t.pc)) =
      some (0xFFFFAAAB, 0x104) ∧
    (run (.adivf 0 2 3 4) { start [(2, 0x10000), (3, 0x10000), (4, 0x40000)] with acarry := true }).map
      (fun t => (t.reg 2, t.acarry, t.pc)) = some (0x14000, false, 0x104) ∧
    (run (.adivfi 0 2 3 false 0x4000) { start [(2, 0xFFFFFFFF), (3, 0x10000)] with acarry := false }).map
      (fun t => (t.reg 2, t.acarry, t.pc)) = some (0x3FFFF, true, 0x104) := by
  and_intros <;> decide

/-- 43_predicate.md R272, R273, R280, R281. -/
theorem test_predicates_of_flags :
    (run (.spc 0 1) { start [] with carry := true, preds := predicates [(1, false)] }).map
      (fun t => (t.pred 1, t.pc, t.carry)) = some (true, 0x104, true) ∧
    (run (.spnc 0 1) { start [] with carry := true, preds := predicates [(1, true)] }).map
      (fun t => (t.pred 1, t.pc, t.carry)) = some (false, 0x104, true) ∧
    (run (.spt 0 1) { start [] with preds := predicates [(1, false)] }).map (fun t => (t.pred 1, t.pc)) =
      some (true, 0x104) ∧
    (run (.spf 1 1) { start [] with preds := predicates [(1, true)] }).map (fun t => (t.pred 1, t.pc)) =
      some (false, 0x104) := by
  and_intros <;> decide

/-- 43_predicate.md R274, R275. -/
theorem test_predicates_of_equality :
    (run (.spe 0 1 3 4) { start [(3, 0x12345678), (4, 0x12345678)] with preds := predicates [(1, false)] }).map
      (fun t => (t.pred 1, t.pc)) = some (true, 0x104) ∧
    (run (.spne 0 1 3 0) { start [(3, 0)] with preds := predicates [(1, true)] }).map
      (fun t => (t.pred 1, t.pc)) = some (false, 0x104) := by
  and_intros <;> decide

/-- 43_predicate.md R276 to R279. -/
theorem test_predicates_of_order :
    (run (.spl 0 1 3 4) { start [(3, 0xFFFFFFFF), (4, 1)] with preds := predicates [(1, true)] }).map
      (fun t => (t.pred 1, t.pc)) = some (if Config.cmpSigned then (true, 0x104) else (false, 0x104)) ∧
    (run (.spnl 0 1 3 4) { start [(3, 5), (4, 5)] with preds := predicates [(1, false)] }).map
      (fun t => (t.pred 1, t.pc)) = some (true, 0x104) ∧
    (run (.spg 0 1 3 4) { start [(3, 0x80000000), (4, 0x7FFFFFFF)] with preds := predicates [(1, false)] }).map
      (fun t => (t.pred 1, t.pc)) = some (if Config.cmpSigned then (false, 0x104) else (true, 0x104)) ∧
    (run (.spng 0 1 3 4) { start [(3, 7), (4, 9)] with preds := predicates [(1, false)] }).map
      (fun t => (t.pred 1, t.pc)) = some (true, 0x104) := by
  simp only [run, exec, execSpl, execSpnl, execSpg, execSpng]
  delta cmpGt cmpLt
  cases Config.cmpSigned <;> and_intros <;> decide

/-- 44_memory_instr.md R295 to R298. -/
theorem test_loads :
    (run (.ld 0 2 3 2) { start [(3, 0x2001)] with
      mem := words [(0x00002002, 0xBEEF), (0x00002003, 0xDEAD)] }).map (fun t => (t.reg 2, t.pc)) =
      some (0xDEADBEEF, 0x104) ∧
    (run (.ldu 0 2 3 0x1FFFF) { start [(2, 0xFFFFFFFF), (3, 0x2004)] with
      mem := words [(0x00002003, 0x8001)] }).map (fun t => (t.reg 2, t.pc)) = some (0x8001, 0x104) ∧
    (run (.lds 0 2 3 0x1FFFF) { start [(3, 0x2004)] with mem := words [(0x00002003, 0x8001)] }).map
      (fun t => (t.reg 2, t.pc)) = some (0xFFFF8001, 0x104) ∧
    (run (.pop 0 2 3 0) { start [(3, 0x2002)] with
      mem := words [(0x00002002, 0x5678), (0x00002003, 0x1234)] }).map (fun t => (t.reg 2, t.reg 3, t.pc)) =
      some (0x12345678, 0x2003, 0x104) := by
  and_intros <;> decide

/-- 44_memory_instr.md R299 to R302. -/
theorem test_stores :
    (run (.str 0 2 3 4) (start [(2, 0xCAFEF00D), (3, 0x2000)])).map
      (fun t => (readWord t.mem 0x00002004, readWord t.mem 0x00002005, t.pc)) = some (0xF00D, 0xCAFE, 0x104) ∧
    (run (.stu 0 2 3 1) { start [(2, 0x12348765), (3, 0x2000)] with
      mem := words [(0x00002000, 0x1111), (0x00002002, 0x2222)] }).map
      (fun t => (readWord t.mem 0x00002000, readWord t.mem 0x00002001, readWord t.mem 0x00002002, t.pc)) =
      some (0x1111, 0x8765, 0x2222, 0x104) ∧
    (run (.sts 0 2 3 0) (start [(2, 0xFFFFFFFE), (3, 0x2001)])).map (fun t => (readWord t.mem 0x00002001, t.pc))
      = some (0xFFFE, 0x104) ∧
    (run (.push 0 2 3 0) (start [(2, 0xA1B2C3D4), (3, 0x3000)])).map
      (fun t => (t.reg 3, readWord t.mem 0x00003000, readWord t.mem 0x00003001, t.pc)) =
      some (0x2FFF, 0xC3D4, 0xA1B2, 0x104) := by
  and_intros <;> decide

/-- 44_memory_instr.md R303 to R306. -/
theorem test_accumulating_loads :
    (run (.ald 0 2 3 0) { start [(2, 0xFFFFFFFF), (3, 0x2000)] with
      acarry := false, mem := words [(0x00002000, 2), (0x00002001, 0)] }).map (fun t => (t.reg 2, t.acarry, t.pc))
      = some (1, true, 0x104) ∧
    (run (.aldu 0 2 3 0) { start [(2, 0x10000), (3, 0x2000)] with
      acarry := true, mem := words [(0x00002000, 0xFFFF)] }).map (fun t => (t.reg 2, t.acarry, t.pc)) =
      some (0x1FFFF, false, 0x104) ∧
    (run (.alds 0 2 3 0) { start [(2, 5), (3, 0x2000)] with
      acarry := false, mem := words [(0x00002000, 0xFFFF)] }).map (fun t => (t.reg 2, t.acarry, t.pc)) =
      some (4, true, 0x104) ∧
    (run (.apop 0 2 3 0) { start [(2, 1), (3, 0x2002)] with
      acarry := true, mem := words [(0x00002002, 1), (0x00002003, 0x8000)] }).map
      (fun t => (t.reg 2, t.reg 3, t.acarry, t.pc)) = some (0x80000002, 0x2003, false, 0x104) := by
  and_intros <;> decide

/-- 45_branch.md R321, R322, R329. -/
theorem test_branches_on_flags :
    (run (.brc 0 0x10) { start [(1, 0xAAAAAAAA)] with carry := true }).map (fun t => (t.reg 1, t.pc, t.carry)) =
      some (0x104, 0x124, true) ∧
    (run (.brnc 0 0x10) { start [(1, 0xAAAAAAAA)] with carry := true }).map (fun t => (t.reg 1, t.pc, t.carry))
      = some (0xAAAAAAAA, 0x104, true) ∧
    (run (.br 0 0x40) (start [(1, 0xAAAAAAAA)])).map (fun t => (t.reg 1, t.pc)) = some (0x104, 0x184) := by
  and_intros <;> decide

/-- 45_branch.md R323, R324. -/
theorem test_branches_on_equality :
    (run (.bre 0 3 4 0x1FFFE) (start [(1, 0xAAAAAAAA), (3, 5), (4, 5)])).map (fun t => (t.reg 1, t.pc)) =
      some (0x104, 0x100) ∧
    (run (.brne 0 3 0 0x1FFFA) (start [(1, 0xAAAAAAAA), (3, 1)])).map (fun t => (t.reg 1, t.pc)) =
      some (0x104, 0xF8) := by
  and_intros <;> decide

/-- 45_branch.md R325 to R328. -/
theorem test_branches_on_order :
    (run (.brl 0 3 4 8) (start [(1, 0xAAAAAAAA), (3, 0xFFFFFFFF), (4, 1)])).map (fun t => (t.reg 1, t.pc)) =
      some (if Config.cmpSigned then (0x104, 0x114) else (0xAAAAAAAA, 0x104)) ∧
    (run (.brnl 0 3 4 8) (start [(1, 0xAAAAAAAA), (3, 7), (4, 7)])).map (fun t => (t.reg 1, t.pc)) =
      some (0x104, 0x114) ∧
    (run (.brg 0 3 4 0xFFFF) (start [(1, 0xAAAAAAAA), (3, 9), (4, 2)])).map (fun t => (t.reg 1, t.pc)) =
      some (0x104, 0x20102) ∧
    (run (.brng 0 3 4 0x10000) (start [(1, 0xAAAAAAAA), (3, 2), (4, 9)])).map (fun t => (t.reg 1, t.pc)) =
      some (0x104, 0xFFFE0104) := by
  simp only [run, exec, execBrl, execBrnl, execBrg, execBrng]
  delta cmpGt cmpLt
  cases Config.cmpSigned <;> and_intros <;> decide

/-- 46_jump.md R341 to R343. -/
theorem test_jumps :
    (run (.jmp 0 1 0) (start [(1, 0x205)])).map (fun t => (t.reg 1, t.pc)) = some (0x104, 0x204) ∧
    (run (.jr 0 3 2) (start [(1, 0xAAAAAAAA), (3, 0x10)])).map (fun t => (t.reg 1, t.pc)) = some (0x104, 0x118) ∧
    (run (.iret 0) { start [(1, 0xAAAAAAAA)] with pcSave := 0x345, ien := false }).map
      (fun t => (t.reg 1, t.ien, t.pcSave, t.pc)) = some (0xAAAAAAAA, true, 0x345, 0x344) := by
  and_intros <;> decide

/-- 47_compare.md R352 to R355, R364, R365. -/
theorem test_comparisons_of_equality :
    (run (.se 0 2 3 4) (start [(2, 0xDEADBEEF), (3, 0x80000000), (4, 0x80000000)])).map
      (fun t => (t.reg 2, t.pc)) = some (1, 0x104) ∧
    (run (.sne 0 2 3 0) (start [(2, 0xDEADBEEF), (3, 0x400)])).map (fun t => (t.reg 2, t.pc)) = some (1, 0x104) ∧
    (run (.sei 0 2 3 false 0xFFFF) (start [(2, 0xDEADBEEF), (3, 0xFFFFFFFF)])).map (fun t => (t.reg 2, t.pc)) =
      some (0, 0x104) ∧
    (run (.snei 0 2 3 true 0x1234) (start [(2, 0xDEADBEEF), (3, 0x12340000)])).map (fun t => (t.reg 2, t.pc)) =
      some (0, 0x104) ∧
    (run (.set 0 2) (start [(2, 0xDEADBEEF)])).map (fun t => (t.reg 2, t.pc)) = some (1, 0x104) ∧
    (run (.clr 0 2) (start [(2, 0xDEADBEEF)])).map (fun t => (t.reg 2, t.pc)) = some (0, 0x104) := by
  and_intros <;> decide

/-- 47_compare.md R356 to R359. -/
theorem test_comparisons_less :
    (run (.slt 0 2 3 4) (start [(2, 0xDEADBEEF), (3, 0xFFFFFFFE), (4, 3)])).map (fun t => (t.reg 2, t.pc)) =
      some (if Config.cmpSigned then (1, 0x104) else (0, 0x104)) ∧
    (run (.snlt 0 2 3 4) (start [(2, 0xDEADBEEF), (3, 3), (4, 3)])).map (fun t => (t.reg 2, t.pc)) =
      some (1, 0x104) ∧
    (run (.slti 0 2 3 false 0x8000) (start [(2, 0xDEADBEEF), (3, 0x10)])).map (fun t => (t.reg 2, t.pc)) =
      some (if Config.cmpSigned then (0, 0x104) else (1, 0x104)) ∧
    (run (.snlti 0 2 3 false 0xA) (start [(2, 0xDEADBEEF), (3, 0xA)])).map (fun t => (t.reg 2, t.pc)) =
      some (1, 0x104) := by
  simp only [run, exec, execSlt, execSnlt, execSlti, execSnlti]
  delta cmpLt cmpImm
  cases Config.cmpSigned <;> and_intros <;> decide

/-- 47_compare.md R360 to R363. -/
theorem test_comparisons_greater :
    (run (.sgt 0 2 3 4) (start [(2, 0xDEADBEEF), (3, 0x80000000), (4, 0x7FFFFFFF)])).map
      (fun t => (t.reg 2, t.pc)) = some (if Config.cmpSigned then (0, 0x104) else (1, 0x104)) ∧
    (run (.sngt 0 2 3 4) (start [(2, 0xDEADBEEF), (3, 4), (4, 5)])).map (fun t => (t.reg 2, t.pc)) =
      some (1, 0x104) ∧
    (run (.sgti 0 2 3 true 1) (start [(2, 0xDEADBEEF), (3, 0x10001)])).map (fun t => (t.reg 2, t.pc)) =
      some (1, 0x104) ∧
    (run (.sngti 0 2 3 false 0x64) (start [(2, 0xDEADBEEF), (3, 0x65)])).map (fun t => (t.reg 2, t.pc)) =
      some (0, 0x104) := by
  simp only [run, exec, execSgt, execSngt, execSgti, execSngti]
  delta cmpGt cmpImm
  cases Config.cmpSigned <;> and_intros <;> decide

/-- 48_misc_system.md R370 to R373. -/
theorem test_system :
    (run (.nop 0) (start [])).map (fun t => t.pc) = some 0x104 ∧
    (run (.srr 0 2 0) (start [(2, 0xFFFFFFFF)])).map (fun t => (t.reg 2, t.pc)) = some (0x69DD80, 0x104) ∧
    (run (.srr 0 2 0x123) (start [(2, 0xFFFFFFFF)])).map (fun t => (t.reg 2, t.pc)) = some (0, 0x104) ∧
    (run (.srw 0 2 3) { start [(2, 0xFFFFFFFF)] with ien := false }).map (fun t => (t.ien, t.pc)) =
      some (true, 0x104) ∧
    (run (.srw 0 2 0) (start [(2, 0x12345678)])).map (fun t => (readSr t 0, t.pc)) = some (0x69DD80, 0x104) ∧
    (run (.trap 0 3) { start [(1, 0xAAAAAAAA)] with ien := true, pcSave := 0 }).map
      (fun t => (t.reg 1, t.ien, t.pcSave, t.pc)) = some (0xAAAAAAAA, false, 0x104, 0x18) ∧
    (run (.trap 0 0x1FF) { start [] with ien := false, pcSave := 0 }).map (fun t => (t.pcSave, t.pc)) =
      some (0x104, 0x7F8) := by
  and_intros <;> decide

/-! ### Well-formedness: one ill-formed term for each check -/

/-- 44_memory_instr.md R292: `dst = rs1` other than `r0`. -/
theorem test_pop_into_its_base_is_ill_formed :
    (Instr.pop 0 3 3 0).wellFormed = false ∧ (Instr.apop 0 63 63 4).wellFormed = false := by decide

theorem test_pop_into_another_register_or_r0_is_well_formed :
    (Instr.pop 0 3 4 0).wellFormed = true ∧ (Instr.apop 0 0 0 4).wellFormed = true := by decide

/-- 30_encoding.md R117, R122: an unused bit that is 1, and an unassigned opcode. -/
theorem test_words_that_are_not_canonical :
    canonicalWord 0x00080000001 = false ∧ canonicalWord 0x0000000000D = false := by decide

/-! ### Decoding: every field at a value of its own, written out field by field -/

/-- Formats R, I, P, M, B, J (30_encoding.md R111 to R116), bits 41 to 0. -/
theorem test_decode_every_field :
    decode 0b00000000000_100100_0_010010_0_101101_110_00000001 = .instr (.add 6 45 18 36) ∧
    decode 0b1000000000000110_1_0_010010_0_101101_101_00010001 = .instr (.addi 5 45 18 true 0x8006) ∧
    decode 0b00000000000_100100_0_010010_0000_011_100_11000000 = .instr (.spe 4 3 18 36) ∧
    decode 0b10000000000000011_0_010010_0_101101_011_10000000 = .instr (.ld 3 45 18 0x10003) ∧
    decode 0b10000000000000011_0_100100_0_010010_010_11000010 = .instr (.bre 2 18 36 0x10003) ∧
    decode 0b10000000000000011_00000000_010010_111_11111101 = .instr (.jmp 7 18 0x10003) := by decide

/-- 30_encoding.md R117, R123: blank bits and ignored fields make no difference. -/
theorem test_decode_ignores_unread_bits :
    decode 0x3FFFFFFF800 = .instr (.nop 0) ∧ decode 0x3FFFFFE10F4 = .instr (.set 0 2) ∧
    decode 0x3FFFFFFF8FF = .instr (.iret 0) ∧ decode 0x0000FFE10A0 = .instr (.srr 0 2 3) := by decide

/-- 30_encoding.md R122; D25: an unassigned opcode is refused even under a False predicate. -/
theorem test_unassigned_opcode_is_refused :
    decode 0x0000000010D = .unassigned 0x0D ∧
    step { start [] with mem := words [(0x100, 0x010D)] } = .refused (.unassignedOpcode 0x0D) :=
  ⟨by decide, rfl⟩

/-! ### Registers, predicates, memory -/

/-- 10_state.md R31, 40_arith_addsub_logic.md R153: `r0` discards a result; accumulating onto it clears `acarry`. -/
theorem test_results_for_r0_are_discarded :
    (run (.add 0 0 3 3) (start [(3, 0x80000001)])).map (fun t => (t.reg 0, t.carry)) = some (0, true) ∧
    (run (.aior 0 0 3 3) { start [(3, 7)] with acarry := true }).map (fun t => (t.reg 0, t.acarry)) =
      some (0, false) := by and_intros <;> decide

/-- 10_state.md R36: `p0` discards a write. -/
theorem test_p0_stays_true : (run (.spf 0 0) (start [])).map (fun t => t.pred 0) = some true := by decide

/-- 30_encoding.md R118, 10_state.md R50: a False predicate skips the instruction and does not count it. -/
theorem test_false_predicate_skips :
    (run (.addi 1 2 3 false 1) (start [])).map (fun t => (t.reg 2, t.pc, t.instrs)) = some (0, 0x104, 0) ∧
    (run (.nop 0) (start [])).map (fun t => (t.pc, t.instrs)) = some (0x104, 1) := by and_intros <;> decide

/-- 20_memory.md R80, R82, R85, R88: at the top of the space, and with bit 0 of a dword address ignored. -/
theorem test_memory_at_the_top :
    readDword (words [(0xFFFFFFFE, 0x5678), (0xFFFFFFFF, 0x1234)]) 0xFFFFFFFF = 0x12345678 ∧
    readWord (writeDword [] 0xFFFFFFFF 0x12345678) 0xFFFFFFFE = 0x5678 ∧
    readWord (writeDword [] 0xFFFFFFFF 0x12345678) 0 = 0 ∧
    fetchInstr (words [(0xFFFFFFFE, 1), (0xFFFFFFFF, 2), (0, 3), (1, 4)]) 0xFFFFFFFE = 0x00300020001 := by
  and_intros <;> decide

/-- Writing what an unlisted byte reads as removes the entry (log 4). -/
theorem test_memory_stays_canonical :
    writeWord (writeWord [] 2 0x1234) 2 0 = [] ∧ writeWord (writeWord [] 5 0x0100) 2 1 = [(4, 1), (11, 1)] := by
  and_intros <;> decide

/-- 42_arith_muldiv.md R237: a division by 0 leaves the values of `DIV0`, and goes on. -/
theorem test_division_by_zero :
    (run (.div 0 2 3 0) (start [(3, 9)])).map (fun t => (t.reg 2, t.divmso, t.pc)) =
      some ((Config.div0Wide 0x22 9 0).1, (Config.div0Wide 0x22 9 0).2, 0x104) ∧
    (run (.divsi 0 2 3 false 0) (start [(3, 9)])).map (fun t => t.reg 2) = some (Config.div0 0x33 9) :=
  ⟨rfl, rfl⟩

/-- 41_arith_shift.md R202: the carry enters above a whole dword. -/
theorem test_shift_through_carry_by_the_whole_width :
    shLC 0x80000003 32 true = some (0x80000000, true) ∧ shRC 0x80000002 32 true = some (1, true) ∧
    shLC 5 0 true = some (5, true) ∧ shLC 5 33 true = none := by decide

/-! ### Devices -/

/-- 20_memory.md R93: a load from a device takes what it returns, given the access it sees; the base decides. -/
theorem test_load_from_a_device :
    (run (.ldu 1 2 3 1) platform).map (fun t => (t.reg 2, t.deviceLog)) =
      some (((Config.deviceAnswer [⟨3, 0, .readWord 0x3001⟩]).extractLsb' 0 16).zeroExtend 32,
        [⟨3, 0, .readWord 0x3001⟩]) ∧
    (run (.ld 1 2 3 1) platform).map (fun t => t.deviceLog) = some [⟨3, 0, .readDword 0x3000⟩] := ⟨rfl, rfl⟩

/-- 20_memory.md R93: a store to a device leaves memory as it was. -/
theorem test_store_to_a_device :
    (run (.push 1 4 3 0) platform).map (fun t => (t.deviceLog, t.mem, t.reg 3)) =
      some ([⟨3, 0, .writeDword 0x3000 7⟩], platform.mem, 0x2FFF) := by decide

/-- 20_memory.md R80, R85, R93: of the dword at 0x3002 the low word is the device's and the high one is in memory. -/
theorem test_dword_half_in_a_device :
    (run (.ld 1 2 3 3) { platform with mem := words [(0x3002, 1), (0x3003, 0xBEEF)] }).map
      (fun t => (t.reg 2, t.deviceLog)) =
      some (0xBEEF#16 ++ (Config.deviceAnswer [⟨3, 0, .readWord 0x3002⟩]).extractLsb' 0 16,
        [⟨3, 0, .readWord 0x3002⟩]) ∧
    (run (.str 1 2 3 2) platform).map
      (fun t => (t.deviceLog, readWord t.mem 0x3002, readWord t.mem 0x3003)) =
      some ([⟨3, 0, .writeWord 0x3002 0xFFF0⟩], 0, 0xFFFF) := ⟨rfl, by decide⟩

/-- 60_exceptions.md R400, 20_memory.md R93: where nothing answers, in the words on either side of it, and in the fourth
word of a fetch. -/
theorem test_nothing_answers :
    exec (.str 1 2 3 8) platform = .fault (.nothingAt 0x3009) ∧ (run (.ldu 1 2 3 8) platform).isSome = true ∧
    (run (.str 1 2 3 10) platform).isSome = true ∧ (run (.str 2 2 3 8) platform).isSome = true ∧
    step { platform with pc := 0x3006 } = .fault (.nothingAt 0x3009) :=
  ⟨rfl, by decide, by decide, by decide, rfl⟩

/-- 10_state.md R57, R58: the registers `EXTRA_SR` defines, and one of the addresses without a register. -/
theorem test_extra_status_registers :
    (run (.srr 1 2 12) platform).map (fun t => t.reg 2) = some (Config.deviceAnswer [⟨7, 0, .readSr 12⟩]) ∧
    (run (.srw 1 4 0xFFFF) platform).map (fun t => t.deviceLog) = some [⟨3, 0, .writeSr 0xFFFF 7⟩] ∧
    (run (.srr 1 2 13) platform).map (fun t => (t.reg 2, t.deviceLog)) = some (0, []) := ⟨rfl, by decide, by decide⟩

/-- 20_memory.md R88, R93: a fetch from a device, a dword at once where the device has it whole, from low to high. -/
theorem test_fetch_from_a_device :
    { platform with pc := 0x3000 }.afterFetch.deviceLog = [⟨3, 0, .readWord 0x3002⟩, ⟨3, 0, .readDword 0x3000⟩] := by
  decide

/-! ### Traps and interrupts -/

/-- 60_exceptions.md R405: `pc'` is the address of the instruction not yet executed; `8 * 127` is the last vector. -/
theorem test_interrupt_is_accepted :
    (stepped { start [] with ien := true, irqs := [some 127] }).map
      (fun t => (t.pcSave, t.pc, t.ien, t.instrs)) = some (0x100, 0x3F8, false, 1) := by decide

/-- 60_exceptions.md R404: with `ien = 0` the instruction at `pc` runs. -/
theorem test_disabled_interrupt_is_ignored :
    (stepped { start [] with irqs := [some 127] }).map (fun t => (t.pc, t.pcSave, t.irqs)) = some (0x104, 0, []) := by
  decide

/-- The instruction placed is the one that runs (log 25). -/
theorem test_placed_instruction_runs :
    (stepped ((start [(3, 5)]).withFetchWord 42 0x000040C1011)).map (fun t => t.reg 2) = some 6 := by decide

/-! ### Witnesses: values that meet the hypotheses of each statement of Certificates/Slice0/Obligations.lean

`witness_X` is about `Obligations.X`. Where the statement ranges over a list of forms, the witness shows one of them at
these operands. -/

section witnesses

theorem witness_EncodeDecode : decode 0x3FFFFFFF800 = .instr (.nop 0) := by decide

theorem witness_UnreadBitsIgnored :
    decode 0x3FFFFFFF800 = .instr (.nop 0) ∧
    0x00000000000 &&& (Instr.nop 0).usedBits = 0x3FFFFFFF800 &&& (Instr.nop 0).usedBits := by decide

/-- Both sides, at the ends of the last range. -/
theorem witness_UnassignedOpcodesRejected :
    decode 0xF5 = .instr (.clr 0 0) ∧ decode 0xF6 = .unassigned 0xF6 ∧ decode 0xFC = .unassigned 0xFC ∧
    decode 0xFD = .instr (.jmp 0 0 0) := by decide

/-- The address written and another one. -/
theorem witness_WordReadAfterWrite : sample.mem.wf ∧ (0xFFFFFFFF : Addr) = 0xFFFFFFFF ∧ (0 : Addr) ≠ 0xFFFFFFFF := by
  decide

theorem witness_MixedWidthView :
    sample.mem.wf ∧ (0 : Addr).getLsbD 0 = false ∧ (0xFFFFFFFE : Addr).getLsbD 0 = false := by decide

/-- The same dword, and the neighbouring one. -/
theorem witness_DwordReadAfterWrite :
    sample.mem.wf ∧ (0xFFFFFFFF : Addr).toNat / 2 = (0xFFFFFFFE : Addr).toNat / 2 ∧
    (2 : Addr).toNat / 2 ≠ (1 : Addr).toNat / 2 := by decide

theorem witness_FetchLayout : (0xFFFFFFFE : Addr).getLsbD 0 = false := by decide

/-- No request because none is enabled, and because none is presented. -/
theorem witness_StepRunsDecodedInstruction :
    sample.ien = false ∧ { sample with ien := true, irqs := [none, some 5] }.irqs.head?.join = none ∧
    (∀ a ∈ fetchWords sample.pc, sample.memoryAt a = .ram) ∧
    decode sample.beginStep.fetch = .instr (.add 0 2 3 4) := ⟨by decide, by decide, at_each (by decide), by decide⟩

/-- At an odd `pc` whose four words wrap around, where a device stood. -/
theorem witness_StoredInstructionRuns :
    let s := { sample with pc := 0xFFFFFFFF, memoryMap := [⟨0xFFFFFFF0, 0xFFFFFFFF, .device 3⟩] }
    s.mem.wf ∧ fetchWords s.pc = [0xFFFFFFFE, 0xFFFFFFFF, 0, 1] ∧ s.memoryAt 0xFFFFFFFE = .device 3 ∧
    s.memoryAt 1 = .ram := by
  and_intros <;> decide

theorem witness_InterruptAccepted :
    let s := { sample with ien := true, irqs := [some 127, none] }
    s.ien = true ∧ s.irqs = some 127 :: [none] := by decide

theorem witness_DisabledInterruptsUnseen : sample.ien = false := by decide

/-- A word that is refused, under a False predicate, and a fetch whose fourth word has no answer; with interrupts disabled,
and enabled with no request. -/
theorem witness_StepGoesOn :
    let s := { sample with mem := words [(0x100, 0x20D)] }
    let u := { platform with pc := 0x3006, ien := true }
    (s.ien = false ∧ (∀ a ∈ fetchWords s.pc, s.memoryAt a ≠ .absent) ∧
      decode s.beginStep.fetch = .unassigned 0x0D) ∧
    u.irqs.head?.join = none ∧ ∃ a ∈ fetchWords u.pc, u.memoryAt a = .absent :=
  ⟨⟨by decide, at_each (by decide), by decide⟩, by decide, 0x3009, by decide, by decide⟩

theorem witness_TrapEntry : 0 < 256 ∧ 255 < 256 := by decide

theorem witness_StepKeepsInvariant : State.reset.Inv ∧ ∃ t, step State.reset = .next t :=
  ⟨⟨by decide, by decide, by decide, by decide⟩, _, rfl⟩

/-- Loads where a device answers, where memory does on either side of the hole, and where nothing does, and an instruction
without an access. -/
theorem witness_EveryInstructionCompletes :
    (∀ a ∈ (Instr.ld 1 2 3 0).memoryWords platform, platform.memoryAt a ≠ .absent) ∧
    (Instr.ldu 1 2 3 8).memoryWords platform = [0x3008] ∧ platform.memoryAt 0x3008 = .ram ∧
    (Instr.ld 1 2 3 10).memoryWords platform = [0x300A, 0x300B] ∧ platform.memoryAt 0x300A = .ram ∧
    platform.memoryAt 0x300B = .ram ∧ platform.pred (Instr.ld 1 2 3 8).predicate = true ∧
    (Instr.ld 1 2 3 8).memoryWords platform = [0x3008, 0x3009] ∧ platform.memoryAt 0x3009 = .absent ∧
    (Instr.nop 1).memoryWords platform = [] :=
  ⟨at_each (by decide), by decide, by decide, by decide, by decide, by decide, by decide, by decide, by decide,
    by decide⟩

theorem witness_PredicatedOff : sample.pred (Instr.push 2 3 4 5).predicate = false := by decide

/-- Another instruction, an `srw` elsewhere, and the `srw` to `instrs`. -/
theorem witness_InstructionsCounted :
    sample.pred (Instr.srw 1 4 5).predicate = true ∧ (∃ t, exec (.srw 1 4 5) sample = .next t) ∧
    sample.pred (Instr.srw 0 4 6).predicate = true ∧ (∃ t, exec (.srw 0 4 6) sample = .next t) ∧
    (∀ p r, Instr.srw 0 4 6 ≠ .srw p r 5) :=
  ⟨by decide, ⟨_, rfl⟩, by decide, ⟨_, rfl⟩, by simp⟩

theorem witness_OnlyNamedWrites : ∃ t, exec (.apop 1 2 3 0) sample = .next t := ⟨_, rfl⟩

theorem witness_PredicateWriters :
    ∃ t, exec (.spt 0 7) sample = .next t ∧ t.pred 7 ≠ sample.pred 7 := ⟨_, rfl, by decide⟩

/-- An arithmetic instruction, and the `srw`. -/
theorem witness_CarryWriters :
    (∃ t, exec (.add 1 2 3 4) sample = .next t ∧ t.carry ≠ sample.carry) ∧
    ∃ t, exec (.srw 1 0 9) sample = .next t ∧ t.carry ≠ sample.carry := ⟨⟨_, rfl, by decide⟩, _, rfl, by decide⟩

theorem witness_ControlTransfers :
    (∃ t, exec (.br 1 4) sample = .next t ∧ t.pc ≠ sample.pc + 4) ∧
    ∃ t, exec (.trap 1 0xFF) sample = .next t ∧ t.pc ≠ sample.pc + 4 := ⟨⟨_, rfl, by decide⟩, _, rfl, by decide⟩

theorem witness_AddInstructions :
    sample.pred 1 = true ∧
    (Instr.aadci 1 0 3 true 0xFFFF, Modifier.accumulate, (0xFFFF0000 : Dword), 1) ∈
      [(Instr.aadci 1 0 3 true 0xFFFF, Modifier.accumulate, 0xFFFF#16 ++ 0#16, sample.carry.toNat)] := by decide

theorem witness_SubInstructions :
    sample.pred 1 = true ∧
    (Instr.suci 1 2 3 false 0xFFFF, Modifier.replace, (0xFFFF : Dword), 1) ∈
      [(Instr.suci 1 2 3 false 0xFFFF, Modifier.replace, (0xFFFF#16).zeroExtend 32, sample.carry.toNat)] := by decide

theorem witness_LogicInstructions :
    sample.pred 1 = true ∧
    (Instr.axor 1 2 3 4, Modifier.accumulate, (7 : Dword), xor) ∈
      [(Instr.axor 1 2 3 4, Modifier.accumulate, sample.reg 4, xor)] :=
  ⟨by decide, List.mem_singleton.mpr rfl⟩

/-- `r63 : r62 := r3 : r2 + r4 : r4`. -/
theorem witness_TwoDwordAddition :
    sample.pred 0 = true ∧ sample.pred 1 = true ∧
    (62 : Reg) ≠ 0 ∧ (63 : Reg) ≠ 0 ∧ (63 : Reg) ≠ 62 ∧ (3 : Reg) ≠ 62 ∧ (4 : Reg) ≠ 62 ∧
    ∃ t u, exec (.add 0 62 2 4) sample = .next t ∧ exec (.adc 1 63 3 4) t = .next u :=
  ⟨by decide, by decide, by decide, by decide, by decide, by decide, by decide, _, _, rfl, rfl⟩

/-- A result kept and a result for `r0`. -/
theorem witness_AddRegisters :
    sample.pred 1 = true ∧ (63 : Reg) ≠ 0 ∧ (0 : Reg) = 0 ∧ (0x0007EFDFF01 : InstrWord) &&& usedR = 0x0007EFDFF01 ∧
    (0x0007EFDFF01 : InstrWord).extractLsb' 0 8 = 0x01#8 := by decide

theorem witness_BitwiseRegisters :
    sample.pred 1 = true ∧ (Instr.and 1 0 3 4, and) ∈ [(Instr.and 1 0 3 4, and)] ∧
    ((0x05 : Opcode), Instr.and) ∈ [((0x05 : Opcode), Instr.and)] ∧
    (0x0007EFDFF05 : InstrWord) &&& usedR = 0x0007EFDFF05 ∧ (0x0007EFDFF05 : InstrWord).extractLsb' 0 8 = 0x05 :=
  ⟨by decide, List.mem_singleton.mpr rfl, List.mem_singleton.mpr rfl, by decide, by decide⟩

/-- Amounts 7, 32 and 33. -/
theorem witness_ShiftInstructions :
    sample.pred 1 = true ∧ sample.reg 4 = 7 ∧ sample.reg 6 = 32 ∧ sample.reg 5 = 33 ∧
    (Instr.sl 1 2 3 6, Modifier.replace, (32 : Dword)) ∈ [(Instr.sl 1 2 3 6, Modifier.replace, sample.reg 6)] := by
  decide

/-- Amounts 0, 1 and 32, for either value of `SHAMT_MASK5`. -/
theorem witness_LeftShiftsThroughCarry :
    sample.pred 1 = true ∧ (if Config.shamtMask5 then (sample.reg 0).toNat % 32 else (sample.reg 0).toNat) ≤ 32 ∧
    (if Config.shamtMask5 then (1 : Dword).toNat % 32 else (1 : Dword).toNat) ≤ 32 ∧
    (if Config.shamtMask5 then (sample.reg 6).toNat % 32 else (sample.reg 6).toNat) ≤ 32 ∧
    (Instr.slc 1 2 3 6, Modifier.replace, (32 : Dword)) ∈ [(Instr.slc 1 2 3 6, Modifier.replace, sample.reg 6)] := by
  cases Config.shamtMask5 <;> decide

/-- Amounts 0, 1 and 32, for either value of `SHAMT_MASK5`. -/
theorem witness_RightShiftsThroughCarry :
    sample.pred 1 = true ∧ (if Config.shamtMask5 then (sample.reg 0).toNat % 32 else (sample.reg 0).toNat) ≤ 32 ∧
    (if Config.shamtMask5 then (1 : Dword).toNat % 32 else (1 : Dword).toNat) ≤ 32 ∧
    (if Config.shamtMask5 then (sample.reg 6).toNat % 32 else (sample.reg 6).toNat) ≤ 32 ∧
    (Instr.asrci 1 2 3 false 1, Modifier.accumulate, (1 : Dword)) ∈
      [(Instr.asrci 1 2 3 false 1, Modifier.accumulate, (1#16).zeroExtend 32)] := by
  cases Config.shamtMask5 <;> decide

theorem witness_ShiftsThroughCarryBeyond32 :
    sample.pred 1 = true ∧ 32 < (sample.reg 5).toNat ∧
    (Instr.slc 1 2 3 5, Modifier.replace, (33 : Dword)) ∈ [(Instr.slc 1 2 3 5, Modifier.replace, sample.reg 5)] := by
  decide

theorem witness_UnsignedMultiplies :
    sample.pred 1 = true ∧
    (Instr.amul 1 0 3 2, Modifier.accumulate, (0xFFFFFFF0 : Dword)) ∈
      [(Instr.amul 1 0 3 2, Modifier.accumulate, sample.reg 2)] := by decide

theorem witness_SignedMultiplies :
    sample.pred 1 = true ∧
    (Instr.mulsi 1 2 3 false 0x8000, Modifier.replace, (0xFFFF8000 : Dword)) ∈
      [(Instr.mulsi 1 2 3 false 0x8000, Modifier.replace, (0x8000#16).signExtend 32)] := by decide

theorem witness_FixedPointMultiplies :
    sample.pred 1 = true ∧
    (Instr.mulfi 1 2 3 true 0x8000, Modifier.replace, (0x80000000 : Dword)) ∈
      [(Instr.mulfi 1 2 3 true 0x8000, Modifier.replace, 0x8000#16 ++ 0#16)] := by decide

theorem witness_UnsignedDivides :
    sample.pred 1 = true ∧ sample.reg 4 ≠ 0 ∧
    (Instr.adiv 1 0 3 4, Modifier.accumulate, (7 : Dword)) ∈
      [(Instr.adiv 1 0 3 4, Modifier.accumulate, sample.reg 4)] := by decide

theorem witness_SignedDivides :
    sample.pred 1 = true ∧ (0xFFFFFFFF : Dword) ≠ 0 ∧
    (Instr.divfi 1 2 3 false 0xFFFF, Modifier.replace, (0xFFFFFFFF : Dword), (2 ^ 16 : Int)) ∈
      [(Instr.divfi 1 2 3 false 0xFFFF, Modifier.replace, (0xFFFF#16).signExtend 32, 2 ^ 16)] := by decide

/-- A register that holds 0, the register `r0`, and the immediate 0. -/
theorem witness_DividesByZero :
    sample.pred 1 = true ∧ sample.reg 0 = 0 ∧ sample.reg 7 = 0 ∧ (0 : BitVec 16) = 0 ∧
    (Instr.div 1 2 3 7, Modifier.replace, (0x22 : Opcode)) ∈ [(Instr.div 1 2 3 7, Modifier.replace, 0x22)] := by
  decide

theorem witness_PredicateInstructions :
    sample.pred 1 = true ∧ (Instr.spnc 1 0, sample.carry = false) ∈ [(Instr.spnc 1 0, sample.carry = false)] :=
  ⟨by decide, List.mem_singleton.mpr rfl⟩

/-- A condition that holds, equal operands, and one that does not. -/
theorem witness_ComparisonInstructions :
    sample.pred 1 = true ∧ sample.reg 3 = sample.reg 3 ∧ ¬ sample.reg 3 = sample.reg 4 ∧
    (Instr.se 1 0 3 4, sample.reg 3 = sample.reg 4) ∈ [(Instr.se 1 0 3 4, sample.reg 3 = sample.reg 4)] :=
  ⟨by decide, by decide, by decide, List.mem_singleton.mpr rfl⟩

/-- With the ignored `rs1` and `rs2` at 63. -/
theorem witness_SetAndClear :
    sample.pred 1 = true ∧ (0x0007EFC10F4 : InstrWord) &&& usedR = 0x0007EFC10F4 ∧
    (0x0007EFC10F4 : InstrWord).extractLsb' 0 8 = 0xF4#8 ∧ (0x0007EFC10F5 : InstrWord) &&& usedR = 0x0007EFC10F5 ∧
    (0x0007EFC10F5 : InstrWord).extractLsb' 0 8 = 0xF5#8 := by decide

theorem witness_LoadInstructions :
    sample.pred 1 = true ∧
    (Instr.alds 1 0 3 0, Modifier.accumulate, (0xFFFFBEEF : Dword), [(0x3000 : Addr)]) ∈
      [(Instr.alds 1 0 3 0, Modifier.accumulate,
        (readWord sample.mem (sample.reg 3 + (0#17).signExtend 32)).signExtend 32,
        [sample.reg 3 + (0#17).signExtend 32])] ∧
    (∀ a ∈ [(0x3000 : Addr)], sample.memoryAt a = .ram) ∧
    ∀ a ∈ [(0x3000 : Addr), 0x3001], sample.memoryAt a = .ram :=
  ⟨by decide, by decide, at_each (by decide), at_each (by decide)⟩

/-- Both modifiers; `dst` and `rs1` distinct, equal and `r0`, equal and another register. -/
theorem witness_PopInstructions :
    sample.pred 1 = true ∧ sample.memoryAt 0x3000 = .ram ∧ sample.memoryAt 0x3001 = .ram ∧
    BitVec.ofNat 32 (2 * ((sample.reg 3 + (0#17).signExtend 32).toNat / 2)) = (0x3000 : Addr) ∧
    (2 : Reg) ≠ 3 ∧ (0 : Reg) = 0 ∧ ¬ ((3 : Reg) ≠ 3 ∨ (3 : Reg) = 0) ∧
    (Instr.pop 1 2 3 0, Modifier.replace) ∈ [(Instr.pop 1 2 3 0, Modifier.replace)] ∧
    (Instr.apop 1 3 3 0, Modifier.accumulate) ∈ [(Instr.apop 1 3 3 0, Modifier.accumulate)] := by
  and_intros <;> decide

theorem witness_StoreInstructions :
    let low : Addr := BitVec.ofNat 32 (2 * ((effectiveAddr (sample.reg 3) 1).toNat / 2))
    sample.pred 1 = true ∧ sample.mem.wf ∧ sample.memoryAt low = .ram ∧ sample.memoryAt (low + 1) = .ram ∧
    platform.memoryAt (effectiveAddr (platform.reg 3) 3) = .ram := by
  and_intros <;> decide

theorem witness_PushInstruction :
    let low : Addr := BitVec.ofNat 32 (2 * ((effectiveAddr (sample.reg 3) 1).toNat / 2))
    sample.pred 1 = true ∧ sample.mem.wf ∧ sample.memoryAt low = .ram ∧ sample.memoryAt (low + 1) = .ram := by
  and_intros <;> decide

theorem witness_PushesOverlap :
    sample.pred 1 = true ∧ sample.mem.wf ∧ (3 : Reg) ≠ 0 ∧ (2 : Reg) ≠ 3 ∧ (sample.reg 3).getLsbD 0 = false ∧
    (∀ a ∈ [sample.reg 3 - 2, sample.reg 3 - 1, sample.reg 3, sample.reg 3 + 1], sample.memoryAt a = .ram) ∧
    ∃ t u v, exec (.push 1 2 3 0) sample = .next t ∧ exec (.push 1 2 3 0) t = .next u ∧
      exec (.push 1 2 3 0) u = .next v :=
  ⟨by decide, by decide, by decide, by decide, by decide, at_each (by decide), _, _, _, rfl, rfl, rfl⟩

/-- Both ends of what the device has, a dword that is the device's, the dword that is half the device's, and both ends of
the extra status registers. -/
theorem witness_DeviceReads :
    platform.pred 1 = true ∧ platform.memoryAt (effectiveAddr (platform.reg 3) 0) = .device 3 ∧
    platform.memoryAt (effectiveAddr (platform.reg 3) 2) = .device 3 ∧
    (platform.memoryAt 0x3000 = .device 3 ∧ platform.memoryAt (0x3000 + 1) = .device 3) ∧
    (platform.memoryAt 0x3002 ≠ platform.memoryAt (0x3002 + 1) ∧ platform.memoryAt 0x3002 ≠ .absent ∧
      platform.memoryAt (0x3002 + 1) ≠ .absent) ∧
    BitVec.ofNat 32 (2 * ((effectiveAddr (platform.reg 3) 3).toNat / 2)) = (0x3002 : Addr) ∧
    (Instr.apop 1 3 3 0, Modifier.accumulate) ∈ [(Instr.apop 1 3 3 0, Modifier.accumulate)] ∧ (2 : Reg) ≠ 3 ∧
    12 ≤ (12 : SrAddr).toNat ∧ platform.extraSr.lookup 12 = some 7 ∧
    12 ≤ (0xFFFF : SrAddr).toNat ∧ platform.extraSr.lookup 0xFFFF = some 3 := by
  and_intros <;> decide

theorem witness_DeviceWrites :
    platform.pred 1 = true ∧ platform.mem.wf ∧ platform.memoryAt (effectiveAddr (platform.reg 3) 0) = .device 3 ∧
    platform.memoryAt (effectiveAddr (platform.reg 3) 2) = .device 3 ∧
    (platform.memoryAt 0x3000 = .device 3 ∧ platform.memoryAt (0x3000 + 1) = .device 3) ∧
    (platform.memoryAt 0x3002 ≠ platform.memoryAt (0x3002 + 1) ∧ platform.memoryAt 0x3002 ≠ .absent ∧
      platform.memoryAt (0x3002 + 1) ≠ .absent) ∧
    12 ≤ (12 : SrAddr).toNat ∧ platform.extraSr.lookup 12 = some 7 ∧
    12 ≤ (0xFFFF : SrAddr).toNat ∧ platform.extraSr.lookup 0xFFFF = some 3 := by
  and_intros <;> decide

/-- A condition that holds and one that does not. -/
theorem witness_BranchInstructions :
    sample.pred 1 = true ∧ sample.carry = true ∧ ¬ sample.carry = false ∧
    (Instr.brnc 1 0x10000, sample.carry = false) ∈ [(Instr.brnc 1 0x10000, sample.carry = false)] :=
  ⟨by decide, by decide, by decide, List.mem_singleton.mpr rfl⟩

theorem witness_JumpInstructions :
    sample.pred 1 = true ∧
    (Instr.jr 1 1 0x10000, (0x104 : Int)) ∈ [(Instr.jr 1 1 0x10000, (sample.pc.toNat : Int) + 4)] := by
  decide

theorem witness_InterruptReturn : sample.pred 1 = true := by decide

theorem witness_NoOperation : sample.pred 1 = true := by decide

/-- Addresses 11, 12 and the last one; 11 and 13 also where `EXTRA_SR` defines others. -/
theorem witness_StatusRegisterRead :
    sample.pred 1 = true ∧ (11 : SrAddr).toNat = 11 ∧ (11, sample.pcSave) ∈ [(11, sample.pcSave)] ∧
    12 ≤ (12 : SrAddr).toNat ∧ sample.extraSr.lookup 12 = none ∧ 12 ≤ (0xFFFF : SrAddr).toNat ∧
    sample.extraSr.lookup 0xFFFF = none ∧ platform.pred 1 = true ∧ (11 : SrAddr).toNat < 12 ∧
    platform.extraSr.lookup 13 = none := by decide

theorem witness_StatusRegisterWrite :
    sample.pred 1 = true ∧ (11 : SrAddr).toNat < 12 ∧ platform.pred 1 = true ∧ platform.extraSr.lookup 13 = none := by
  decide

theorem witness_ReadOnlyRegisters :
    sample.pred 1 = true ∧ ((1 : SrAddr), (0x00010000 : Dword)) ∈ [((1 : SrAddr), (0x00010000 : Dword))] := by decide

theorem witness_TrapInstruction : sample.pred 1 = true := by decide

theorem witness_TrapThenReturn :
    sample.pred 1 = true ∧ sample.pred 0 = true ∧ sample.pc.getLsbD 0 = false ∧
    ∃ t u, exec (.trap 1 0x1FF) sample = .next t ∧ exec (.iret 0) t = .next u :=
  ⟨by decide, by decide, by decide, _, _, rfl, rfl⟩

end witnesses

end Sys2Proof.Tests
end

/-! Proofs about 10_state.md: the status registers every AA32 processor has, and the two read-only identity registers. -/

namespace Sys2Proof.Machine

/-! ### Status registers of base AA32 (10_state.md R57, R58) -/

/-- `EXTRA_SR` puts no device behind an address of base AA32. -/
theorem State.srDevice_of_lt (s : State) {a : SrAddr} (h : a.toNat < 12) : s.srDevice a = none := if_pos h

/-- `srr` of a register no device answers for. -/
theorem exec_srr_base {p : Pred} {s : State} (hp : s.pred p = true) (dst : Reg) {a : SrAddr}
    (ha : s.srDevice a = none) :
    exec (.srr p dst a) s = .next (s.setReg dst (readSr s a)).advance.retire := by
  calc exec (.srr p dst a) s
      = guarded p s (.next ((s.afterSr a).setReg dst (s.loadSr a)).advance) := rfl
    _ = .next (s.setReg dst (readSr s a)).advance.retire := by
      rw [guarded_true hp, State.afterSr_base ha, State.loadSr_base ha, retired_next]

/-- `srw` of a register no device answers for. -/
theorem exec_srw_base {p : Pred} {s : State} (hp : s.pred p = true) (src : Reg) {a : SrAddr}
    (ha : s.srDevice a = none) :
    exec (.srw p src a) s = .next (writeSr s a (s.reg src)).advance.retire := by
  calc exec (.srw p src a) s
      = guarded p s (.next (s.storeSr a (s.reg src)).advance) := rfl
    _ = .next (writeSr s a (s.reg src)).advance.retire := by
      rw [guarded_true hp, State.storeSr_base ha, retired_next]

/-! ### The read-only registers `arev` and `vendor` (10_state.md R46, R47) -/

/-- `arev` reads its constant in every state (10_state.md R46). -/
theorem readSr_arev (s : State) : readSr s 1 = 0x00010000 := rfl

/-- `vendor` reads its constant in every state (10_state.md R47). -/
theorem readSr_vendor (s : State) : readSr s 2 = Config.vendorId := rfl

/-- A write to `arev` is discarded (10_state.md R58). -/
theorem writeSr_arev (s : State) (v : Dword) : writeSr s 1 v = s := rfl

/-- A write to `vendor` is discarded (10_state.md R58). -/
theorem writeSr_vendor (s : State) (v : Dword) : writeSr s 2 v = s := rfl

/-- A base register that reads `v` in every state and discards writes: `srr` of it puts `v` in `dst`, `srw` to it
changes nothing but `pc` and the instruction count. -/
theorem srr_srw_of_readOnly {p : Pred} {s : State} (hp : s.pred p = true) (r : Reg) {a : SrAddr} {v : Dword}
    (ha : a.toNat < 12) (hread : ∀ t : State, readSr t a = v) (hwrite : ∀ x : Dword, writeSr s a x = s) :
    (∃ t, exec (.srr p r a) s = .next t ∧ Received t r v ∧ Frame { regs := [r] } s t) ∧
      ∃ t, exec (.srw p r a) s = .next t ∧ Frame { } s t ∧ readSr t a = v := by
  have hbase : s.srDevice a = none := s.srDevice_of_lt ha
  constructor
  · refine ⟨_, exec_srr_base hp r hbase, ?_, (Frame.setReg _ s r _ (List.mem_singleton_self r)).advance_retire⟩
    rw [hread s]
    exact s.setReg_reg_same r v
  · refine ⟨_, exec_srw_base hp r hbase, ?_, hread _⟩
    rw [hwrite]
    exact (Frame.refl _ s).advance_retire

/-- Settles O58: `arev` and `vendor` are base registers that read a constant and discard writes. -/
theorem readOnlyRegisters : Obligations.ReadOnlyRegisters := by
  unfold Obligations.ReadOnlyRegisters
  intro p r s hp a v hav
  simp only [List.mem_cons, List.not_mem_nil, or_false, Prod.mk.injEq] at hav
  obtain ⟨rfl, rfl⟩ | ⟨rfl, rfl⟩ := hav
  · exact srr_srw_of_readOnly hp r (by decide) readSr_arev (writeSr_arev s)
  · exact srr_srw_of_readOnly hp r (by decide) readSr_vendor (writeSr_vendor s)

end Sys2Proof.Machine

/-! Proofs about 20_memory.md: words read after words were written. -/

namespace Sys2Proof.Machine

/-- Settles O6: at the written address the word itself, at every other address the word that was there. -/
theorem wordReadAfterWrite : Obligations.WordReadAfterWrite := by
  unfold Obligations.WordReadAfterWrite
  intro m a b v hm
  split
  case isTrue hsame =>
    rw [hsame]
    exact readWord_writeWord_same hm a v
  case isFalse hother => exact readWord_writeWord_ne m v hother

end Sys2Proof.Machine

/-! Proofs about 40_arith_addsub_logic.md: the add and the bitwise instructions of two registers. -/

namespace Sys2Proof.Machine

/-! ### The decoder on an assigned opcode (30_encoding.md R120) -/

/-- The opcode byte alone selects the operand decoder that reads the rest of the word. -/
theorem decode_of_lookup {w : InstrWord} {op : Opcode} {mk : InstrWord → Instr} (hop : w.extractLsb' 0 8 = op)
    (hmk : opcodeMap.lookup op = some mk) : decode w = .instr (mk w) := by
  have hfield : opcodeField w = op := hop
  rw [decode, decodeOpcode, hfield, hmk]

/-! ### `add` of two registers (40_arith_addsub_logic.md R154, R160) -/

/-- The sum and the carry out of an addition are together its exact value (40_arith_addsub_logic.md R154). -/
theorem addC_toNat (a b : Dword) (c : Bool) :
    (addC a b c).1.toNat + 2 ^ 32 * (addC a b c).2.toNat = a.toNat + b.toNat + c.toNat := by
  have ha := a.isLt
  have hb := b.isLt
  have hc := c.toNat_lt
  simp only [addC, BitVec.toNat_ofNat]
  by_cases hover : 2 ^ 32 ≤ a.toNat + b.toNat + c.toNat
  · rw [decide_eq_true hover, Bool.toNat_true]
    omega
  · rw [decide_eq_false hover, Bool.toNat_false]
    omega

/-- `add` of an executed instruction: one effect, then the instruction is counted. -/
theorem exec_add {p : Pred} {s : State} (hp : s.pred p = true) (dst rs1 rs2 : Reg) :
    exec (.add p dst rs1 rs2) s = .next (addEffect .replace dst (s.reg rs1) (s.reg rs2) false s).retire :=
  guarded_true hp _

/-- Settles O30: the opcode selects format R, and `addC_toNat` says the sum that `addEffect` leaves. -/
theorem addRegisters : Obligations.AddRegisters := by
  unfold Obligations.AddRegisters
  refine ⟨fun w _ hop => decode_of_lookup hop rfl, fun p dst rs1 rs2 s hp => ?_⟩
  obtain ⟨hseq, ⟨hreg, -⟩, hcarry⟩ := addEffect_spec .replace dst (s.reg rs1) (s.reg rs2) false s
  refine ⟨_, exec_add hp dst rs1 rs2, fun hdst => ?_, fun hdst => ⟨?_, hcarry⟩, hseq.pc, ?_⟩
  · rw [hreg, if_neg hdst, hcarry]
    exact addC_toNat (s.reg rs1) (s.reg rs2) false
  · rw [hreg, if_pos hdst]
  · exact addEffect_frame _ .replace dst _ _ false s (List.mem_singleton_self dst) nofun rfl

/-! ### Bitwise instructions of two registers (40_arith_addsub_logic.md R176, R180, R184) -/

/-- A register that received `v` holds every bit of it, unless it is `r0`, which holds none. -/
theorem Received.getLsbD {t : State} {r : Reg} {v : Dword} (h : Received t r v) (k : Nat) :
    (t.reg r).getLsbD k = (decide (r ≠ 0) && v.getLsbD k) := by
  rw [h]
  by_cases hr : r = 0 <;> simp [hr]

/-- An executed instruction whose one effect replaces `dst` by a value made bit by bit from two operands; nothing but
`dst` changes, so neither `sr.carry` nor `sr.acarry` does. -/
theorem guarded_bitwise {p : Pred} {s : State} (hp : s.pred p = true) (dst : Reg) {a b v : Dword}
    {f : Bool → Bool → Bool} (hv : ∀ k, v.getLsbD k = f (a.getLsbD k) (b.getLsbD k)) :
    ∃ t, guarded p s (.next (plainEffect .replace dst v s)) = .next t ∧
      (∀ k < 32, (t.reg dst).getLsbD k = (decide (dst ≠ 0) && f (a.getLsbD k) (b.getLsbD k))) ∧
      t.pc = nextPc s.pc ∧ Frame { regs := [dst] } s t := by
  obtain ⟨hseq, hreg, -⟩ := plainEffect_spec .replace dst v s
  exact ⟨_, guarded_true hp _, fun k _ => by rw [hreg.getLsbD, hv], hseq.pc,
    plainEffect_frame _ .replace dst v s (List.mem_singleton_self dst) nofun⟩

/-- Settles O31: each opcode selects format R, and each instruction puts the bits of its operator in `dst`. -/
theorem bitwiseRegisters : Obligations.BitwiseRegisters := by
  unfold Obligations.BitwiseRegisters
  constructor
  · intro w op mk hmk _ hop
    simp only [List.mem_cons, List.not_mem_nil, or_false, Prod.mk.injEq] at hmk
    obtain ⟨rfl, rfl⟩ | ⟨rfl, rfl⟩ | ⟨rfl, rfl⟩ := hmk
    · exact decode_of_lookup hop (mk := decR .and) rfl
    · exact decode_of_lookup hop (mk := decR .ior) rfl
    · exact decode_of_lookup hop (mk := decR .xor) rfl
  · intro p dst rs1 rs2 s hp i f hi
    simp only [List.mem_cons, List.not_mem_nil, or_false, Prod.mk.injEq] at hi
    obtain ⟨rfl, rfl⟩ | ⟨rfl, rfl⟩ | ⟨rfl, rfl⟩ := hi
    · exact guarded_bitwise hp dst fun _ => BitVec.getLsbD_and
    · exact guarded_bitwise hp dst fun _ => BitVec.getLsbD_or
    · exact guarded_bitwise hp dst fun _ => BitVec.getLsbD_xor

end Sys2Proof.Machine

/-! Proofs about 47_compare.md: the instructions that set and clear a register. -/

namespace Sys2Proof.Machine

/-! ### A truth value in a register (47_compare.md R350) -/

/-- An executed instruction whose one effect is a truth value in `dst`: all of `dst` becomes 1 or 0, unless it is `r0`,
and the instruction completes in sequence. -/
theorem guarded_compare {p : Pred} {s : State} (hp : s.pred p = true) (dst : Reg) (b : Bool) :
    ∃ t, guarded p s (.next (compareEffect dst b s)) = .next t ∧ Received t dst (if b then 1 else 0) ∧
      Sequential { regs := [dst] } s t := by
  obtain ⟨hseq, hreg⟩ := compareEffect_spec dst b s
  exact ⟨_, guarded_true hp _, hreg, hseq⟩

/-! ### `set` and `clr` (47_compare.md R364, R365) -/

/-- `set` of an executed instruction: the comparison that always holds. -/
theorem exec_set {p : Pred} {s : State} (hp : s.pred p = true) (dst : Reg) :
    ∃ t, exec (.set p dst) s = .next t ∧ Received t dst 1 ∧ Sequential { regs := [dst] } s t :=
  guarded_compare hp dst true

/-- `clr` of an executed instruction: the comparison that never holds. -/
theorem exec_clr {p : Pred} {s : State} (hp : s.pred p = true) (dst : Reg) :
    ∃ t, exec (.clr p dst) s = .next t ∧ Received t dst 0 ∧ Sequential { regs := [dst] } s t :=
  guarded_compare hp dst false

/-- Settles O44: each opcode selects the operand decoder that reads `p` and `dst` alone, and each instruction puts its
truth value in `dst` and completes in sequence. -/
theorem setAndClear : Obligations.SetAndClear := by
  unfold Obligations.SetAndClear
  refine ⟨fun w _ hop => ?_, fun w _ hop => ?_, fun p dst s hp => ⟨?_, ?_⟩⟩
  · exact decode_of_lookup hop (mk := decDst .set) rfl
  · exact decode_of_lookup hop (mk := decDst .clr) rfl
  · obtain ⟨t, hexec, hreg, hseq⟩ := exec_set hp dst
    exact ⟨t, hexec, hreg, hseq.pc, hseq.frame⟩
  · obtain ⟨t, hexec, hreg, hseq⟩ := exec_clr hp dst
    exact ⟨t, hexec, hreg, hseq.pc, hseq.frame⟩

end Sys2Proof.Machine

/-! Proofs about 60_exceptions.md: the trap entry. -/

namespace Sys2Proof.Machine

/-! ### Trap entry (60_exceptions.md R402) -/

/-- No frame speaks of the instruction count, so the frame of a counted effect is that of the effect itself. -/
theorem Frame.of_retire {w : Writes} {s t : State} (h : Frame w s t.retire) : Frame w s t :=
  ⟨h.regs, h.preds, h.carry, h.acarry, h.ien, h.cycles, h.mulms, h.divmsi, h.divmso, h.pcSave, h.bytes,
    h.deviceLog, h.memoryMap, h.extraSr, h.irqs, h.draws⟩

/-- Control goes to word address `8 * n` itself, for every trap number whose vector lies in the address space. -/
theorem takeTrap_pc_toNat (s : State) {n : Nat} (ret : Addr) (hn : 8 * n < 2 ^ 32) :
    (s.takeTrap n ret).pc.toNat = 8 * n := by
  rw [State.takeTrap_pc, vectorStride_eq, BitVec.toNat_ofNat]
  exact Nat.mod_eq_of_lt hn

/-- Settles O15: a trap number below 256 has its vector in the address space, and the frame of a trap entry leaves out
the two status registers it writes. -/
theorem trapEntry : Obligations.TrapEntry := by
  unfold Obligations.TrapEntry
  intro s n ret hn
  have hvector : 8 * n < 2 ^ 32 := by omega
  exact ⟨s.takeTrap_pcSave n ret, takeTrap_pc_toNat s ret hvector, s.takeTrap_ien n ret, s.takeTrap_instrs n ret,
    s.takeTrap_mem n ret, (takeTrap_frame s n ret).of_retire⟩

end Sys2Proof.Machine

/-! Proofs about 30_encoding.md: the decoder recovers every instruction from its encoding. -/

namespace Sys2Proof.Machine

/-! ### Decoding an encoded word, per operand list (30_encoding.md R111 to R118, R120, R123) -/

section decodeEncoded
variable {op : Opcode}

theorem decode_encR_none {mk : Pred → Instr} (h : opcodeMap.lookup op = some (decNone mk)) (p : Pred) :
    decode (encR op p 0 0 0) = .instr (mk p) := by
  obtain ⟨hop, hp, -⟩ := encR_fields op p 0 0 0
  rw [decode_of_lookup hop h, decNone, hp]

theorem decode_encJ_none {mk : Pred → Instr} (h : opcodeMap.lookup op = some (decNone mk)) (p : Pred) :
    decode (encJ op p 0 0) = .instr (mk p) := by
  obtain ⟨hop, hp, -⟩ := encJ_fields op p 0 0
  rw [decode_of_lookup hop h, decNone, hp]

theorem decode_encR_dst {mk : Pred → Reg → Instr} (h : opcodeMap.lookup op = some (decDst mk)) (p : Pred)
    (dst : Reg) : decode (encR op p dst 0 0) = .instr (mk p dst) := by
  obtain ⟨hop, hp, hdst, -⟩ := encR_fields op p dst 0 0
  rw [decode_of_lookup hop h, decDst, hp, hdst]

theorem decode_encR {mk : Pred → Reg → Reg → Reg → Instr} (h : opcodeMap.lookup op = some (decR mk)) (p : Pred)
    (dst rs1 rs2 : Reg) : decode (encR op p dst rs1 rs2) = .instr (mk p dst rs1 rs2) := by
  obtain ⟨hop, hp, hdst, hrs1, hrs2⟩ := encR_fields op p dst rs1 rs2
  rw [decode_of_lookup hop h, decR, hp, hdst, hrs1, hrs2]

theorem decode_encI {mk : Pred → Reg → Reg → Bool → BitVec 16 → Instr} (h : opcodeMap.lookup op = some (decI mk))
    (p : Pred) (dst rs1 : Reg) (ul : Bool) (imm16 : BitVec 16) :
    decode (encI op p dst rs1 ul imm16) = .instr (mk p dst rs1 ul imm16) := by
  obtain ⟨hop, hp, hdst, hrs1, hul, himm⟩ := encI_fields op p dst rs1 ul imm16
  rw [decode_of_lookup hop h, decI, hp, hdst, hrs1, hul, himm]

theorem decode_encI_sr {mk : Pred → Reg → SrAddr → Instr} (h : opcodeMap.lookup op = some (decSr mk)) (p : Pred)
    (dst : Reg) (sr : SrAddr) : decode (encI op p dst 0 false sr) = .instr (mk p dst sr) := by
  obtain ⟨hop, hp, hdst, -, -, himm⟩ := encI_fields op p dst 0 false sr
  rw [decode_of_lookup hop h, decSr, hp, hdst, himm]

theorem decode_encI_imm16 {mk : Pred → BitVec 16 → Instr} (h : opcodeMap.lookup op = some (decImm16 mk)) (p : Pred)
    (imm16 : BitVec 16) : decode (encI op p 0 0 false imm16) = .instr (mk p imm16) := by
  obtain ⟨hop, hp, -, -, -, himm⟩ := encI_fields op p 0 0 false imm16
  rw [decode_of_lookup hop h, decImm16, hp, himm]

theorem decode_encP {mk : Pred → Pred → Reg → Reg → Instr} (h : opcodeMap.lookup op = some (decP mk)) (p dstp : Pred)
    (rs1 rs2 : Reg) : decode (encP op p dstp rs1 rs2) = .instr (mk p dstp rs1 rs2) := by
  obtain ⟨hop, hp, hdstp, hrs1, hrs2⟩ := encP_fields op p dstp rs1 rs2
  rw [decode_of_lookup hop h, decP, hp, hdstp, hrs1, hrs2]

theorem decode_encP_dstp {mk : Pred → Pred → Instr} (h : opcodeMap.lookup op = some (decDstp mk)) (p dstp : Pred) :
    decode (encP op p dstp 0 0) = .instr (mk p dstp) := by
  obtain ⟨hop, hp, hdstp, -⟩ := encP_fields op p dstp 0 0
  rw [decode_of_lookup hop h, decDstp, hp, hdstp]

theorem decode_encM {mk : Pred → Reg → Reg → BitVec 17 → Instr} (h : opcodeMap.lookup op = some (decM mk)) (p : Pred)
    (dst rs1 : Reg) (imm17 : BitVec 17) : decode (encM op p dst rs1 imm17) = .instr (mk p dst rs1 imm17) := by
  obtain ⟨hop, hp, hdst, hrs1, himm⟩ := encM_fields op p dst rs1 imm17
  rw [decode_of_lookup hop h, decM, hp, hdst, hrs1, himm]

theorem decode_encB {mk : Pred → Reg → Reg → BitVec 17 → Instr} (h : opcodeMap.lookup op = some (decB mk)) (p : Pred)
    (rs1 rs2 : Reg) (imm17 : BitVec 17) : decode (encB op p rs1 rs2 imm17) = .instr (mk p rs1 rs2 imm17) := by
  obtain ⟨hop, hp, hrs1, hrs2, himm⟩ := encB_fields op p rs1 rs2 imm17
  rw [decode_of_lookup hop h, decB, hp, hrs1, hrs2, himm]

theorem decode_encB_imm17 {mk : Pred → BitVec 17 → Instr} (h : opcodeMap.lookup op = some (decImm17 mk)) (p : Pred)
    (imm17 : BitVec 17) : decode (encB op p 0 0 imm17) = .instr (mk p imm17) := by
  obtain ⟨hop, hp, -, -, himm⟩ := encB_fields op p 0 0 imm17
  rw [decode_of_lookup hop h, decImm17, hp, himm]

theorem decode_encJ {mk : Pred → Reg → BitVec 17 → Instr} (h : opcodeMap.lookup op = some (decJ mk)) (p : Pred)
    (rs1 : Reg) (imm17 : BitVec 17) : decode (encJ op p rs1 imm17) = .instr (mk p rs1 imm17) := by
  obtain ⟨hop, hp, hrs1, himm⟩ := encJ_fields op p rs1 imm17
  rw [decode_of_lookup hop h, decJ, hp, hrs1, himm]

end decodeEncoded

/-- Settles O1: each constructor is encoded in the format its opcode's decoder reads. -/
theorem decodeEncode : Obligations.DecodeEncode := by
  unfold Obligations.DecodeEncode
  intro i
  cases i with
  | nop => exact decode_encR_none (mk := .nop) rfl _
  | iret => exact decode_encJ_none (mk := .iret) rfl _
  | set => exact decode_encR_dst (mk := .set) rfl _ _
  | clr => exact decode_encR_dst (mk := .clr) rfl _ _
  | trap => exact decode_encI_imm16 (mk := .trap) rfl _ _
  | srr => exact decode_encI_sr (mk := .srr) rfl _ _ _
  | srw => exact decode_encI_sr (mk := .srw) rfl _ _ _
  | spc | spnc | spt | spf => exact decode_encP_dstp rfl _ _
  | brc | brnc | br => exact decode_encB_imm17 rfl _ _
  | jmp | jr => exact decode_encJ rfl _ _ _
  | spe | spne | spl | spnl | spg | spng => exact decode_encP rfl _ _ _ _
  | bre | brne | brl | brnl | brg | brng => exact decode_encB rfl _ _ _ _
  | ld | ldu | lds | pop | str | stu | sts | push | ald | aldu | alds | apop => exact decode_encM rfl _ _ _ _
  | addi | adci | subi | suci | andi | iori | xori | aaddi | aadci | asubi | asuci | aandi | aiori | axori | slci
  | sli | srci | sri | sari | aslci | asli | asrci | asri | asari | muli | mulsi | divi | divsi | mulfi | divfi | amuli
  | amulsi | adivi | adivsi | amulfi | adivfi | sei | snei | slti | snlti | sgti | sngti =>
    exact decode_encI rfl _ _ _ _ _
  | add | adc | sub | suc | and | ior | xor | aadd | aadc | asub | asuc | aand | aior | axor | slc | sl | src | sr | sar
  | aslc | asl | asrc | asr | asar | mul | muls | div | divs | mulf | divf | amul | amuls | adiv | adivs | amulf | adivf
  | se | sne | slt | snlt | sgt | sngt => exact decode_encR rfl _ _ _ _

end Sys2Proof.Machine

/-! Proofs about 30_encoding.md: the bits the instruction of a word reads, and the opcodes the decoder rejects. -/

namespace Sys2Proof.Machine

/-! ### The opcode map, entry by entry -/

/-- What an entry of the opcode map promises: its instructions read one set of bits, the opcode among them, and encoding
what the entry decodes gives the word back on these bits (30_encoding.md R117, R118, R123). -/
structure ReadsBits (used : InstrWord) (op : Opcode) (mk : InstrWord → Instr) : Prop where
  opcodeRead : used.extractLsb' 0 8 = 0xFF#8
  usedBits : ∀ w, (mk w).usedBits = used
  encode : ∀ w, opcodeField w = op → encode (mk w) = w &&& used

section readsBits
variable {op : Opcode}

theorem readsBits_R {mk : Pred → Reg → Reg → Reg → Instr}
    (hu : ∀ p dst rs1 rs2, (mk p dst rs1 rs2).usedBits = usedR := by intros; rfl)
    (he : ∀ p dst rs1 rs2, encode (mk p dst rs1 rs2) = encR op p dst rs1 rs2 := by intros; rfl) :
    ReadsBits usedR op (decR mk) :=
  ⟨by decide, fun _ => hu .., fun w hw => (he ..).trans (hw ▸ encR_of_fields w)⟩

theorem readsBits_I {mk : Pred → Reg → Reg → Bool → BitVec 16 → Instr}
    (hu : ∀ p dst rs1 ul imm16, (mk p dst rs1 ul imm16).usedBits = usedI := by intros; rfl)
    (he : ∀ p dst rs1 ul imm16, encode (mk p dst rs1 ul imm16) = encI op p dst rs1 ul imm16 := by intros; rfl) :
    ReadsBits usedI op (decI mk) :=
  ⟨by decide, fun _ => hu .., fun w hw => (he ..).trans (hw ▸ encI_of_fields w)⟩

theorem readsBits_M {mk : Pred → Reg → Reg → BitVec 17 → Instr}
    (hu : ∀ p dst rs1 imm17, (mk p dst rs1 imm17).usedBits = usedM := by intros; rfl)
    (he : ∀ p dst rs1 imm17, encode (mk p dst rs1 imm17) = encM op p dst rs1 imm17 := by intros; rfl) :
    ReadsBits usedM op (decM mk) :=
  ⟨by decide, fun _ => hu .., fun w hw => (he ..).trans (hw ▸ encM_of_fields w)⟩

theorem readsBits_P {mk : Pred → Pred → Reg → Reg → Instr}
    (hu : ∀ p dstp rs1 rs2, (mk p dstp rs1 rs2).usedBits = usedP := by intros; rfl)
    (he : ∀ p dstp rs1 rs2, encode (mk p dstp rs1 rs2) = encP op p dstp rs1 rs2 := by intros; rfl) :
    ReadsBits usedP op (decP mk) :=
  ⟨by decide, fun _ => hu .., fun w hw => (he ..).trans (hw ▸ encP_of_fields w)⟩

theorem readsBits_B {mk : Pred → Reg → Reg → BitVec 17 → Instr}
    (hu : ∀ p rs1 rs2 imm17, (mk p rs1 rs2 imm17).usedBits = usedB := by intros; rfl)
    (he : ∀ p rs1 rs2 imm17, encode (mk p rs1 rs2 imm17) = encB op p rs1 rs2 imm17 := by intros; rfl) :
    ReadsBits usedB op (decB mk) :=
  ⟨by decide, fun _ => hu .., fun w hw => (he ..).trans (hw ▸ encB_of_fields w)⟩

theorem readsBits_J {mk : Pred → Reg → BitVec 17 → Instr}
    (hu : ∀ p rs1 imm17, (mk p rs1 imm17).usedBits = usedJ := by intros; rfl)
    (he : ∀ p rs1 imm17, encode (mk p rs1 imm17) = encJ op p rs1 imm17 := by intros; rfl) :
    ReadsBits usedJ op (decJ mk) :=
  ⟨by decide, fun _ => hu .., fun w hw => (he ..).trans (hw ▸ encJ_of_fields w)⟩

theorem readsBits_dst {mk : Pred → Reg → Instr}
    (hu : ∀ p dst, (mk p dst).usedBits = usedDst := by intros; rfl)
    (he : ∀ p dst, encode (mk p dst) = encR op p dst 0 0 := by intros; rfl) :
    ReadsBits usedDst op (decDst mk) :=
  ⟨by decide, fun _ => hu .., fun w hw => (he ..).trans (hw ▸ encR_dst_of_fields w)⟩

theorem readsBits_sr {mk : Pred → Reg → SrAddr → Instr}
    (hu : ∀ p dst sr, (mk p dst sr).usedBits = usedSr := by intros; rfl)
    (he : ∀ p dst sr, encode (mk p dst sr) = encI op p dst 0 false sr := by intros; rfl) :
    ReadsBits usedSr op (decSr mk) :=
  ⟨by decide, fun _ => hu .., fun w hw => (he ..).trans (hw ▸ encI_sr_of_fields w)⟩

theorem readsBits_dstp {mk : Pred → Pred → Instr}
    (hu : ∀ p dstp, (mk p dstp).usedBits = usedDstp := by intros; rfl)
    (he : ∀ p dstp, encode (mk p dstp) = encP op p dstp 0 0 := by intros; rfl) :
    ReadsBits usedDstp op (decDstp mk) :=
  ⟨by decide, fun _ => hu .., fun w hw => (he ..).trans (hw ▸ encP_dstp_of_fields w)⟩

theorem readsBits_imm17 {mk : Pred → BitVec 17 → Instr}
    (hu : ∀ p imm17, (mk p imm17).usedBits = usedImm17 := by intros; rfl)
    (he : ∀ p imm17, encode (mk p imm17) = encB op p 0 0 imm17 := by intros; rfl) :
    ReadsBits usedImm17 op (decImm17 mk) :=
  ⟨by decide, fun _ => hu .., fun w hw => (he ..).trans (hw ▸ encB_imm17_of_fields w)⟩

end readsBits

theorem readsBits_nop : ReadsBits usedNone 0x00 (decNone .nop) :=
  ⟨by decide, fun _ => rfl, fun w hw => Eq.trans (b := encR 0x00 (predField w) 0 0 0) rfl (hw ▸ encR_none_of_fields w)⟩

theorem readsBits_iret : ReadsBits usedNone 0xFF (decNone .iret) :=
  ⟨by decide, fun _ => rfl, fun w hw => Eq.trans (b := encJ 0xFF (predField w) 0 0) rfl (hw ▸ encJ_none_of_fields w)⟩

theorem readsBits_trap : ReadsBits usedImm16 0xA2 (decImm16 .trap) :=
  ⟨by decide, fun _ => rfl, fun w hw =>
    Eq.trans (b := encI 0xA2 (predField w) 0 0 false (imm16Field w)) rfl (hw ▸ encI_imm16_of_fields w)⟩

/-- Every entry of the opcode map reads a fixed set of bits. -/
theorem opcodeMap_readsBits : ∀ entry ∈ opcodeMap, ∃ used, ReadsBits used entry.1 entry.2 := by
  simp only [opcodeMap, List.mem_append, or_imp, forall_and, opcodeRow0, opcodeRow1, opcodeRow2, opcodeRow3,
    opcodeRow4, opcodeRow5, opcodeRow6, opcodeRow7, opcodeRow8, opcodeRow9, opcodeRowA, opcodeRowB, opcodeRowC,
    opcodeRowD, opcodeRowE, opcodeRowF, List.forall_mem_cons, List.not_mem_nil, false_imp_iff, implies_true, and_true]
  refine ⟨⟨⟨⟨⟨⟨⟨⟨⟨⟨⟨⟨⟨⟨⟨⟨⟨_, readsBits_nop⟩, ?row0⟩, ?row1⟩, ?row2⟩, ?row3⟩, ?row4⟩, ?row5⟩, ?row6⟩, ?row7⟩, ?row8⟩,
    ?row9⟩, ?rowA⟩, ?rowB⟩, ?rowC⟩, ?rowD⟩, ?rowE⟩, ?rowF⟩
  case row0 | row2 | row4 | row6 => and_intros <;> exact ⟨_, readsBits_R⟩
  case row1 | row3 | row5 | row7 => and_intros <;> exact ⟨_, readsBits_I⟩
  case row8 | row9 => and_intros <;> exact ⟨_, readsBits_M⟩
  case rowA => exact ⟨⟨_, readsBits_sr⟩, ⟨_, readsBits_sr⟩, ⟨_, readsBits_trap⟩⟩
  case rowB => exact ⟨⟨_, readsBits_dstp⟩, ⟨_, readsBits_dstp⟩, ⟨_, readsBits_imm17⟩, ⟨_, readsBits_imm17⟩⟩
  case rowC | rowD | rowE =>
    exact ⟨⟨_, readsBits_P⟩, ⟨_, readsBits_P⟩, ⟨_, readsBits_B⟩, ⟨_, readsBits_B⟩, ⟨_, readsBits_R⟩,
      ⟨_, readsBits_R⟩, ⟨_, readsBits_I⟩, ⟨_, readsBits_I⟩⟩
  case rowF =>
    exact ⟨⟨_, readsBits_dstp⟩, ⟨_, readsBits_dstp⟩, ⟨_, readsBits_imm17⟩, ⟨_, readsBits_dst⟩, ⟨_, readsBits_dst⟩,
      ⟨_, readsBits_J⟩, ⟨_, readsBits_J⟩, ⟨_, readsBits_iret⟩⟩

/-! ### Words that decode -/

/-- A word that decodes does so by an entry of the opcode map for its opcode. -/
theorem decode_eq_instr {w : InstrWord} {i : Instr} (h : decode w = .instr i) :
    ∃ mk, opcodeMap.lookup (opcodeField w) = some mk ∧ i = mk w := by
  unfold decode decodeOpcode at h
  split at h
  case h_1 mk hmk => exact ⟨mk, hmk, (Decoded.instr.inj h).symm⟩
  case h_2 => cases h

/-- What the instruction of a word that decodes reads, at the entry that decodes it. -/
theorem readsBits_of_lookup {op : Opcode} {mk : InstrWord → Instr} (h : opcodeMap.lookup op = some mk) :
    ∃ used, ReadsBits used op mk := by
  obtain ⟨l₁, l₂, hmap, -⟩ := List.lookup_eq_some_iff.1 h
  exact opcodeMap_readsBits (op, mk) (by simp [hmap])

/-- Words that agree on bits among which the opcode is have one opcode. -/
theorem opcodeField_eq_of_and_eq {v w used : InstrWord} (hop : used.extractLsb' 0 8 = 0xFF#8)
    (h : v &&& used = w &&& used) : opcodeField v = opcodeField w := by
  have hmasked : ∀ x : InstrWord, (x &&& used).extractLsb' 0 8 = opcodeField x := by
    intro x
    have hones : (0xFF#8 : Opcode) = BitVec.allOnes 8 := by decide
    rw [BitVec.extractLsb'_and, hop, hones, BitVec.and_allOnes, opcodeField]
  rw [← hmasked v, ← hmasked w, h]

/-- Settles O2: the entry that decodes the word gives its bits back. -/
theorem encodeDecode : Obligations.EncodeDecode := by
  unfold Obligations.EncodeDecode
  intro w i hdec
  obtain ⟨mk, hmk, rfl⟩ := decode_eq_instr hdec
  obtain ⟨used, hreads⟩ := readsBits_of_lookup hmk
  rw [hreads.encode w rfl, hreads.usedBits]

/-- Settles O3: one entry decodes both words, to instructions with one encoding, and the decoder recovers an instruction
from its encoding. -/
theorem unreadBitsIgnored : Obligations.UnreadBitsIgnored := by
  unfold Obligations.UnreadBitsIgnored
  intro v w i hdec hagree
  obtain ⟨mk, hmk, rfl⟩ := decode_eq_instr hdec
  obtain ⟨used, hreads⟩ := readsBits_of_lookup hmk
  rw [hreads.usedBits] at hagree
  have hop : opcodeField v = opcodeField w := opcodeField_eq_of_and_eq hreads.opcodeRead hagree
  have hv : decode v = .instr (mk v) := decode_of_lookup hop hmk
  have hencode : encode (mk v) = encode (mk w) := by
    rw [hreads.encode v hop, hreads.encode w rfl, hagree]
  have hsame : Decoded.instr (mk v) = .instr (mk w) := by
    rw [← decodeEncode (mk v), hencode, decodeEncode (mk w)]
  rw [hv, hsame]

/-! ### The opcodes without an instruction (30_encoding.md R122) -/

/-- The opcode map has no entry for an opcode that is none of its keys. -/
theorem lookup_eq_none_iff_not_mem_keys (op : Opcode) :
    opcodeMap.lookup op = none ↔ op.toNat ∉ opcodeMap.map fun entry => entry.1.toNat := by
  simp only [List.lookup_eq_none_iff, List.mem_map, not_exists, not_and]
  exact forall₂_congr fun entry _ => by rw [BitVec.toNat_inj, bne_iff_ne, ne_comm]

/-- A word is rejected when the opcode map has no entry for its opcode. -/
theorem decode_unassigned_iff (w : InstrWord) :
    (∃ op, decode w = .unassigned op) ↔ opcodeMap.lookup (opcodeField w) = none := by
  rw [decode, decodeOpcode]
  cases opcodeMap.lookup (opcodeField w) <;> simp

/-- The opcodes of the map, by high and low hexadecimal digit, are the ones outside the ranges of R122. -/
theorem not_mem_keys_iff : ∀ hi < 16, ∀ lo < 16, (16 * hi + lo ∉ opcodeMap.map fun entry => entry.1.toNat) ↔
      ∃ r ∈ [(0x0D, 0x0F), (0x10, 0x10), (0x1D, 0x1F), (0x24, 0x27), (0x2A, 0x2F), (0x34, 0x37), (0x3A, 0x3F),
          (0x40, 0x40), (0x4D, 0x4F), (0x50, 0x50), (0x5D, 0x5F), (0x64, 0x67), (0x6A, 0x6F), (0x74, 0x77),
          (0x7A, 0x7F), (0x84, 0x87), (0x8C, 0x8F), (0x94, 0x9F), (0xA3, 0xAF), (0xB4, 0xBF), (0xC8, 0xCF),
          (0xD8, 0xDF), (0xE8, 0xEF), (0xF3, 0xF3), (0xF6, 0xFC)], r.1 ≤ 16 * hi + lo ∧ 16 * hi + lo ≤ r.2 := by
  decide

/-- Settles O4: the rejected opcodes are those the map has no entry for, checked one by one. -/
theorem unassignedOpcodesRejected : Obligations.UnassignedOpcodesRejected := by
  unfold Obligations.UnassignedOpcodesRejected
  intro w
  have hdigits := not_mem_keys_iff (w.toNat % 256 / 16) (by omega) (w.toNat % 256 % 16) (by omega)
  rw [Nat.div_add_mod] at hdigits
  rw [decode_unassigned_iff, lookup_eq_none_iff_not_mem_keys, opcodeField_toNat]
  exact hdigits

/-- Settles O5: each example is one run of the decoder. -/
theorem decodesExamples : Obligations.DecodesExamples := by
  unfold Obligations.DecodesExamples
  and_intros <;> decide

end Sys2Proof.Machine

/-! Proofs about 20_memory.md: words and dwords read after words and dwords were written, and fetched instructions. -/

namespace Sys2Proof.Machine

/-! ### Addresses of words and dwords (20_memory.md R82, R85) -/

/-- The word below an address, as arithmetic. -/
theorem clearBit0_eq_ofNat (a : Addr) : clearBit0 a = BitVec.ofNat 32 (2 * (a.toNat / 2)) := by
  apply BitVec.eq_of_toNat_eq
  have ha := a.isLt
  rw [clearBit0_toNat, BitVec.toNat_ofNat]
  omega

/-- Two addresses are in one dword when they differ in bit 0 at most. -/
theorem clearBit0_eq_iff (a b : Addr) : clearBit0 b = clearBit0 a ↔ b.toNat / 2 = a.toNat / 2 := by
  rw [← BitVec.toNat_inj, clearBit0_toNat, clearBit0_toNat]
  omega

/-- An address outside a dword is neither of its two words. -/
theorem ne_words_of_div_ne {a b : Addr} (h : b.toNat / 2 ≠ a.toNat / 2) : b ≠ clearBit0 a ∧ b ≠ clearBit0 a + 1 := by
  have hlow := clearBit0_toNat a
  have hhigh := clearBit0_succ_toNat a
  constructor <;> rintro rfl <;> omega

/-- A dword written is a word written at each of its addresses, seen from a word outside it. -/
theorem readWord_writeDword_ne (m : Memory) {a b : Addr} (v : Dword) (hlow : b ≠ clearBit0 a)
    (hhigh : b ≠ clearBit0 a + 1) : readWord (writeDword m a v) b = readWord m b := by
  rw [writeDword_eq, readWord_writeWord_ne _ _ hhigh, readWord_writeWord_ne _ _ hlow]

/-- A dword access depends on its address up to bit 0 (20_memory.md R85). -/
theorem readDword_congr (m : Memory) {a b : Addr} (h : clearBit0 b = clearBit0 a) : readDword m b = readDword m a := by
  rw [readDword_eq, readDword_eq, h]

/-- Settles O7: at an even address the words of a dword are the ones `writeDword` writes and `readDword` reads. -/
theorem mixedWidthView : Obligations.MixedWidthView := by
  unfold Obligations.MixedWidthView
  intro m a hm heven
  have ha : clearBit0 a = a := clearBit0_of_even heven
  refine ⟨fun v => ⟨?_, ?_⟩, fun w0 w1 => ?_⟩
  · simpa only [ha] using readWord_writeDword_low hm a v
  · simpa only [ha] using readWord_writeDword_high hm a v
  · have hne : a ≠ a + 1 := fun e => clearBit0_succ_ne a (by rw [ha]; exact e.symm)
    rw [readDword_eq, ha, readWord_writeWord_same (writeWord_wf hm a w0), readWord_writeWord_ne _ _ hne,
      readWord_writeWord_same hm]

/-- Settles O8: both addresses of the dword name the same two words, and every other word is neither of them. -/
theorem dwordReadAfterWrite : Obligations.DwordReadAfterWrite := by
  unfold Obligations.DwordReadAfterWrite
  intro m a b v hm
  constructor
  · intro hsame
    rw [readDword_congr _ ((clearBit0_eq_iff a b).2 hsame), readDword_writeDword_same hm]
  · intro hother
    obtain ⟨hlow, hhigh⟩ := ne_words_of_div_ne hother
    exact readWord_writeDword_ne m v hlow hhigh

/-! ### The words of an instruction (20_memory.md R83, R88) -/

/-- The instruction in two dwords, from their four words: the last word gives none of its bits, and the third its low 10. -/
theorem instrOfDwords_words (w0 w1 w2 w3 : Word) :
    instrOfDwords (w1 ++ w0) (w3 ++ w2) = w2.extractLsb' 0 10 ++ w1 ++ w0 := by
  apply BitVec.eq_of_toNat_eq
  have h0 := w0.isLt
  have h1 := w1.isLt
  have h2 := w2.isLt
  rw [instrOfDwords, append_toNat, append_toNat, append_toNat (w2.extractLsb' 0 10 ++ w1), append_toNat]
  simp only [BitVec.extractLsb'_toNat, Nat.shiftRight_zero, append_toNat]
  omega

/-- The second dword of a fetch is two words above the first, modulo 2^32. -/
theorem clearBit0_add_two (a : Addr) : clearBit0 (a + 2) = clearBit0 a + 2 := by
  apply BitVec.eq_of_toNat_eq
  have ha := a.isLt
  rw [clearBit0_toNat, BitVec.toNat_add, BitVec.toNat_add, clearBit0_toNat]
  show (a.toNat + 2) % 2 ^ 32 / 2 * 2 = (a.toNat / 2 * 2 + 2) % 2 ^ 32
  omega

/-- What a fetch reads, in words: the fourth word is read and gives no bit. -/
theorem fetchInstr_words (m : Memory) (a : Addr) :
    fetchInstr m a = (readWord m (clearBit0 a + 2)).extractLsb' 0 10 ++ readWord m (clearBit0 a + 1) ++
      readWord m (clearBit0 a) := by
  rw [fetchInstr, readDword_eq, readDword_eq, instrOfDwords_words, clearBit0_add_two]

/-- Settles O9: at an even address the words of the fetch are the ones from `a` on. -/
theorem fetchLayout : Obligations.FetchLayout := by
  unfold Obligations.FetchLayout
  intro m a heven
  rw [fetchInstr_words, clearBit0_of_even heven]

/-- Three words written at consecutive addresses are read back, modulo 2^32, whatever a fourth write above them is. -/
theorem readWord_three_writes {m : Memory} (hm : m.wf) (e : Addr) (w0 w1 w2 w3 : Word) :
    let m' := writeWord (writeWord (writeWord (writeWord m e w0) (e + 1) w1) (e + 2) w2) (e + 2 + 1) w3
    readWord m' e = w0 ∧ readWord m' (e + 1) = w1 ∧ readWord m' (e + 2) = w2 := by
  have hm0 := writeWord_wf hm e w0
  have hm1 := writeWord_wf hm0 (e + 1) w1
  refine ⟨?_, ?_, ?_⟩
  · rw [readWord_writeWord_ne _ _ (by bv_omega), readWord_writeWord_ne _ _ (by bv_omega),
      readWord_writeWord_ne _ _ (by bv_omega), readWord_writeWord_same hm]
  · rw [readWord_writeWord_ne _ _ (by bv_omega), readWord_writeWord_ne _ _ (by bv_omega),
      readWord_writeWord_same hm0]
  · rw [readWord_writeWord_ne _ _ (by bv_omega), readWord_writeWord_same hm1]

/-- The words of a stored instruction are read back where a fetch reads them, also where the four addresses wrap. -/
theorem fetchInstr_storeInstr {m : Memory} (hm : m.wf) (a : Addr) (w0 w1 w2 w3 : Word) :
    fetchInstr (storeInstr m a (w0, w1, w2, w3)) a = w2.extractLsb' 0 10 ++ w1 ++ w0 := by
  obtain ⟨h0, h1, h2⟩ := readWord_three_writes hm (clearBit0 a) w0 w1 w2 w3
  rw [fetchInstr_words, storeInstr, clearBit0_add_two, h0, h1, h2]

/-- An instruction word numbered as the opcode table numbers it, laid out in memory words and fetched, is itself. -/
theorem fetchInstr_storeInstr_tableWords {m : Memory} (hm : m.wf) (a : Addr) (w : InstrWord) :
    fetchInstr (storeInstr m a (tableWords 42 w.toNat)) a = w := by
  rw [tableWords, fetchInstr_storeInstr hm]
  apply BitVec.eq_of_toNat_eq
  have hw := w.isLt
  rw [append_toNat, append_toNat]
  simp only [BitVec.extractLsb'_toNat, Nat.shiftRight_zero, BitVec.toNat_ofNat]
  omega

/-! ### A step at a boundary without a request (60_exceptions.md R404) -/

/-- No request is accepted where none is present or none is enabled. -/
theorem acceptedRequest_eq_none {s : State} (h : s.ien = false ∨ s.irqs.head?.join = none) :
    s.acceptedRequest = none := by
  rcases h with h | h <;> simp [State.acceptedRequest, h]

/-- Where no request is accepted, a step whose fetched word decodes runs the instruction, if something answers the
fetch. -/
theorem step_of_decoded {s : State} {i : Instr} (h : s.acceptedRequest = none)
    (hdec : decode s.beginStep.fetch = .instr i) :
    step s = onMemory s.beginStep (fetchWords s.pc) (exec i s.beginStep.afterFetch) := by
  simp only [step, h, hdec, State.beginStep_pc]

/-- Where no request is accepted, a step whose fetched word has an unassigned opcode refuses it, if something answers the
fetch. -/
theorem step_of_unassigned {s : State} {op : Opcode} (h : s.acceptedRequest = none)
    (hdec : decode s.beginStep.fetch = .unassigned op) :
    step s = onMemory s.beginStep (fetchWords s.pc) (.refused (.unassignedOpcode op)) := by
  simp only [step, h, hdec, State.beginStep_pc]

/-- Such a step runs the instruction where something answers the fetch. -/
theorem step_of_instr {s : State} {i : Instr} (h : s.acceptedRequest = none)
    (hmem : ∀ a ∈ fetchWords s.pc, s.memoryAt a ≠ .absent) (hdec : decode s.beginStep.fetch = .instr i) :
    step s = exec i s.beginStep.afterFetch := by
  rw [step_of_decoded h hdec]
  exact onMemory_present (s := s.beginStep) hmem _

/-- No request is accepted where an instruction was stored for the next step (log 25). -/
theorem withFetchWord_acceptedRequest (s : State) (n w : Nat) : (s.withFetchWord n w).acceptedRequest = none := by
  by_cases h : s.acceptedRequest.isSome = true
  · exact acceptedRequest_eq_none (.inr (by simp [State.withFetchWord, h]))
  · have hsame : (s.withFetchWord n w).acceptedRequest = s.acceptedRequest := by
      rw [State.withFetchWord, if_neg h]
      rfl
    rw [hsame]
    simpa using h

/-- Settles O11: main memory answers at the four words stored, and they are the ones fetched. -/
theorem storedInstructionRuns : Obligations.StoredInstructionRuns := by
  unfold Obligations.StoredInstructionRuns
  intro s i hm
  have hram : ∀ a ∈ fetchWords s.pc, (s.withFetchWord 42 (encode i).toNat).memoryAt a = .ram :=
    fun a ha => State.mapWithRam_memoryAt (s := s) (ws := fetchWords s.pc) rfl ha
  obtain ⟨hfetch, hafter⟩ := State.fetch_memory (s := (s.withFetchWord 42 (encode i).toNat).beginStep)
    fun a ha => State.deviceAt_of_ram (hram a ha)
  have hword : (s.withFetchWord 42 (encode i).toNat).beginStep.fetch = encode i :=
    hfetch.trans (fetchInstr_storeInstr_tableWords hm s.pc (encode i))
  rw [step_of_instr (i := i) (withFetchWord_acceptedRequest ..) (fun a ha => by simp [hram a ha]) ?_, hafter]
  rw [hword, decodeEncode]

end Sys2Proof.Machine

/-! Proofs about every instruction (30_encoding.md R118, 40 to 48): what the effect of an executed instruction is, writes
and keeps. -/

namespace Sys2Proof.Machine

/-! ### The request stream of a state (60_exceptions.md R406) -/

/-- The state with another stream of requests. -/
def State.withIrqs (s : State) (stream : List (Option (BitVec 7))) : State := { s with irqs := stream }

section withIrqs
variable (s : State) (stream : List (Option (BitVec 7)))

theorem State.afterRead_withIrqs (d : Option DeviceId) (x : DeviceAccess) :
    (s.withIrqs stream).afterRead d x = (s.afterRead d x).withIrqs stream := by cases d <;> rfl

theorem State.afterWord_withIrqs (a : Addr) :
    (s.withIrqs stream).afterWord a = (s.afterWord a).withIrqs stream :=
  s.afterRead_withIrqs stream (s.deviceAt a) (.readWord a)

theorem State.afterDword_withIrqs (a : Addr) :
    (s.withIrqs stream).afterDword a = (s.afterDword a).withIrqs stream := by
  have hsingle : (s.withIrqs stream).singleAccess a = s.singleAccess a := rfl
  simp only [State.afterDword, hsingle]
  split
  · exact s.afterRead_withIrqs stream (s.deviceAt (clearBit0 a)) (.readDword (clearBit0 a))
  · rw [State.afterWord_withIrqs, State.afterWord_withIrqs]

theorem State.loadWord_withIrqs (a : Addr) : (s.withIrqs stream).loadWord a = s.loadWord a := rfl

theorem State.loadDword_withIrqs (a : Addr) : (s.withIrqs stream).loadDword a = s.loadDword a := by
  have hsingle : (s.withIrqs stream).singleAccess a = s.singleAccess a := rfl
  simp only [State.loadDword, hsingle, State.afterWord_withIrqs, State.loadWord_withIrqs]
  rfl

theorem State.afterSr_withIrqs (a : SrAddr) : (s.withIrqs stream).afterSr a = (s.afterSr a).withIrqs stream :=
  s.afterRead_withIrqs stream (s.srDevice a) (.readSr a)

theorem State.storeWord_withIrqs (a : Addr) (v : Word) :
    (s.withIrqs stream).storeWord a v = (s.storeWord a v).withIrqs stream := by
  have hdevice : (s.withIrqs stream).deviceAt a = s.deviceAt a := rfl
  simp only [State.storeWord, hdevice]
  split <;> rfl

theorem State.storeDword_withIrqs (a : Addr) (v : Dword) :
    (s.withIrqs stream).storeDword a v = (s.storeDword a v).withIrqs stream := by
  have hsingle : (s.withIrqs stream).singleAccess a = s.singleAccess a := rfl
  have hdevice : (s.withIrqs stream).deviceAt (clearBit0 a) = s.deviceAt (clearBit0 a) := rfl
  simp only [State.storeDword, hsingle, hdevice]
  split
  · split <;> rfl
  · rw [State.storeWord_withIrqs, State.storeWord_withIrqs]

theorem writeSr_withIrqs (a : SrAddr) (v : Dword) :
    writeSr (s.withIrqs stream) a v = (writeSr s a v).withIrqs stream := by
  unfold writeSr
  split <;> rfl

theorem State.storeSr_withIrqs (a : SrAddr) (v : Dword) :
    (s.withIrqs stream).storeSr a v = (s.storeSr a v).withIrqs stream := by
  have hdevice : (s.withIrqs stream).srDevice a = s.srDevice a := rfl
  simp only [State.storeSr, hdevice]
  split
  · rfl
  · exact writeSr_withIrqs s stream a v

theorem State.putResult_withIrqs (m : Modifier) (dst : Reg) (v : Dword) :
    (s.withIrqs stream).putResult m dst v = (s.putResult m dst v).withIrqs stream := by cases m <;> rfl

end withIrqs

/-! ### The parts of the effect of an instruction -/

/-- The instructions after which control need not go to the next instruction (10_state.md R40). -/
def transfersControl (i : Instr) : Bool :=
  match i with
  | .brc .. | .brnc .. | .bre .. | .brne .. | .brl .. | .brnl .. | .brg .. | .brng .. | .br .. | .jmp .. | .jr ..
  | .iret .. | .trap .. => true
  | _ => false

/-- What every instruction keeps of memory and of the hard-wired slots. -/
structure KeepsSlots (s t : State) : Prop where
  wf : s.mem.wf → t.mem.wf
  zeroSlot : t.regs[0] = s.regs[0]
  trueSlot : t.preds[0] = s.preds[0]

theorem KeepsSlots.trans {s t u : State} (h : KeepsSlots s t) (h' : KeepsSlots t u) : KeepsSlots s u :=
  ⟨fun hs => h'.wf (h.wf hs), h'.zeroSlot.trans h.zeroSlot, h'.trueSlot.trans h.trueSlot⟩

/-- Only `srw` to 0005h writes the instruction count (10_state.md R58). -/
theorem writeSr_instrs (s : State) {a : SrAddr} (v : Dword) (h : a ≠ 5) : (writeSr s a v).instrs = s.instrs := by
  have ha : a.toNat ≠ 5 := fun e => h (BitVec.eq_of_toNat_eq e)
  unfold writeSr
  split <;> first | rfl | contradiction

/-- No write of a status register moves `pc` or writes memory or a register file (10_state.md R58). -/
theorem writeSr_pc (s : State) (a : SrAddr) (v : Dword) : (writeSr s a v).pc = s.pc := by
  unfold writeSr
  split <;> rfl

theorem writeSr_slots (s : State) (a : SrAddr) (v : Dword) : KeepsSlots s (writeSr s a v) := by
  unfold writeSr
  split <;> exact ⟨id, rfl, rfl⟩

/-- `g` is a part of what the instruction `i` does before control moves on: it stays in what `i` may write, and neither
moves `pc` nor sees the requests. -/
structure PartOf (i : Instr) (g : State → State) : Prop where
  frame : ∀ s, Frame (i.writes s) s (g s)
  slots : ∀ s, KeepsSlots s (g s)
  pc : ∀ s, (g s).pc = s.pc
  instrs : (∀ p r, i ≠ .srw p r 5) → ∀ s, (g s).instrs = s.instrs
  irqs : ∀ (s : State) stream, g (s.withIrqs stream) = (g s).withIrqs stream

namespace PartOf
variable {i : Instr} {g : State → State}

/-- Doing nothing yet. -/
theorem start : PartOf i fun s => s :=
  ⟨fun _ => Frame.refl _ _, fun _ => ⟨id, rfl, rfl⟩, fun _ => rfl, fun _ _ => rfl, fun _ _ => rfl⟩

/-- One more update `u s` after the part `g`. -/
theorem andThen {u : State → State → State} (h : PartOf i g)
    (hframe : ∀ s t, Frame (i.writes s) s t → Frame (i.writes s) s (u s t)) (hslots : ∀ s t, KeepsSlots t (u s t))
    (hpc : ∀ s t, (u s t).pc = t.pc) (hinstrs : (∀ p r, i ≠ .srw p r 5) → ∀ s t, (u s t).instrs = t.instrs)
    (hirqs : ∀ (s t : State) stream, u (s.withIrqs stream) (t.withIrqs stream) = (u s t).withIrqs stream) :
    PartOf i fun s => u s (g s) where
  frame s := hframe s _ (h.frame s)
  slots s := (h.slots s).trans (hslots s _)
  pc s := (hpc s _).trans (h.pc s)
  instrs hi s := (hinstrs hi s _).trans (h.instrs hi s)
  irqs s stream := by rw [h.irqs, hirqs]

theorem putResult {m : Modifier} {dst : Reg} {v : State → Dword} (h : PartOf i g)
    (hv : ∀ (s : State) stream, v (s.withIrqs stream) = v s := by intros; rfl)
    (hd : ∀ s, dst ∈ (i.writes s).regs := by simp [Instr.writes, Instr.writesInside])
    (ha : m = .accumulate → ∀ s, (i.writes s).acarry = true := by simp [Instr.writes, Instr.writesInside]) :
    PartOf i fun s => (g s).putResult m dst (v s) :=
  h.andThen (u := fun s t => t.putResult m dst (v s))
    (fun s t ht => ht.trans (Frame.putResult _ t m dst _ (hd s) fun e => ha e s))
    (fun s t => by constructor <;> simp) (fun s t => by simp) (fun _ s t => by simp)
    fun s t stream => by rw [hv, State.putResult_withIrqs]

theorem setReg {dst : Reg} {v : State → Dword} (h : PartOf i g)
    (hv : ∀ (s : State) stream, v (s.withIrqs stream) = v s := by intros; rfl)
    (hd : ∀ s, dst ∈ (i.writes s).regs := by simp [Instr.writes, Instr.writesInside]) :
    PartOf i fun s => (g s).setReg dst (v s) :=
  h.putResult (m := .replace) hv hd nofun

theorem setCarry {c : State → Bool} (h : PartOf i g)
    (hc : ∀ (s : State) stream, c (s.withIrqs stream) = c s := by intros; rfl)
    (hw : ∀ s, (i.writes s).carry = true := by simp [Instr.writes, Instr.writesInside]) :
    PartOf i fun s => (g s).setCarry (c s) :=
  h.andThen (u := fun s t => t.setCarry (c s)) (fun s _ ht => ht.setCarry (hw s) _) (fun _ _ => ⟨id, rfl, rfl⟩)
    (fun _ _ => rfl) (fun _ _ _ => rfl) fun s t stream => by rw [hc]; rfl

theorem setMulms {v : State → Dword} (h : PartOf i g)
    (hv : ∀ (s : State) stream, v (s.withIrqs stream) = v s := by intros; rfl)
    (hw : ∀ s, (i.writes s).mulms = true := by simp [Instr.writes, Instr.writesInside]) :
    PartOf i fun s => (g s).setMulms (v s) :=
  h.andThen (u := fun s t => t.setMulms (v s)) (fun s _ ht => ht.setMulms (hw s) _) (fun _ _ => ⟨id, rfl, rfl⟩)
    (fun _ _ => rfl) (fun _ _ _ => rfl) fun s t stream => by rw [hv]; rfl

theorem setDivmso {v : State → Dword} (h : PartOf i g)
    (hv : ∀ (s : State) stream, v (s.withIrqs stream) = v s := by intros; rfl)
    (hw : ∀ s, (i.writes s).divmso = true := by simp [Instr.writes, Instr.writesInside]) :
    PartOf i fun s => (g s).setDivmso (v s) :=
  h.andThen (u := fun s t => t.setDivmso (v s)) (fun s _ ht => ht.setDivmso (hw s) _) (fun _ _ => ⟨id, rfl, rfl⟩)
    (fun _ _ => rfl) (fun _ _ _ => rfl) fun s t stream => by rw [hv]; rfl

theorem setPred {q : Pred} {b : State → Bool} (h : PartOf i g)
    (hb : ∀ (s : State) stream, b (s.withIrqs stream) = b s := by intros; rfl)
    (hq : ∀ s, q ∈ (i.writes s).preds := by simp [Instr.writes, Instr.writesInside]) :
    PartOf i fun s => (g s).setPred q (b s) :=
  h.andThen (u := fun s t => t.setPred q (b s)) (fun s t ht => ht.trans (Frame.setPred _ t q _ (hq s)))
    (fun s t => ⟨id, rfl, t.setPred_trueSlot q (b s)⟩) (fun _ _ => rfl) (fun _ _ _ => rfl)
    fun s t stream => by rw [hb]; rfl

/-- An instruction reaches the device at a word it accesses. -/
theorem devices_of_mem {s : State} {ws : List Addr} (hw : i.memoryWords s = ws) {a : Addr} (ha : a ∈ ws)
    (h : (s.deviceAt a).isSome = true) : (i.writes s).devices = true := by
  have hany : (i.memoryWords s).any (fun a => (s.deviceAt a).isSome) = true :=
    List.any_eq_true.2 ⟨a, hw ▸ ha, h⟩
  simp [Instr.writes, Instr.reachesDevice, hany]

theorem afterWord {a : State → Addr} (hw : ∀ s, i.memoryWords s = [a s] := by intros; rfl)
    (ha : ∀ (s : State) stream, a (s.withIrqs stream) = a s := by intros; rfl) :
    PartOf i fun s => s.afterWord (a s) where
  frame s := Frame.afterWord _ s _ (devices_of_mem (hw s) (by simp))
  slots s := by constructor <;> simp
  pc s := by simp
  instrs _ s := by simp
  irqs s stream := by rw [ha, State.afterWord_withIrqs]

theorem afterDword {a : State → Addr} (hw : ∀ s, i.memoryWords s = dwordAddrs (a s) := by intros; rfl)
    (ha : ∀ (s : State) stream, a (s.withIrqs stream) = a s := by intros; rfl) :
    PartOf i fun s => s.afterDword (a s) where
  frame s := Frame.afterDword _ s _ fun _ hc => devices_of_mem (hw s) hc
  slots s := by constructor <;> simp
  pc s := by simp
  instrs _ s := by simp
  irqs s stream := by rw [ha, State.afterDword_withIrqs]

theorem storeWord {a : State → Addr} {v : State → Word}
    (hwords : ∀ s, (i.writes s).words = storedWords s [a s] := by intros; rfl)
    (hw : ∀ s, i.memoryWords s = [a s] := by intros; rfl)
    (ha : ∀ (s : State) stream, a (s.withIrqs stream) = a s := by intros; rfl)
    (hv : ∀ (s : State) stream, v (s.withIrqs stream) = v s := by intros; rfl) :
    PartOf i fun s => s.storeWord (a s) (v s) where
  frame s := by
    refine Frame.storeWord _ s _ _ (fun h => ?_) (devices_of_mem (hw s) (by simp))
    rw [hwords]
    simp [storedWords, h]
  slots s := ⟨fun h => State.storeWord_wf h _, by simp, by simp⟩
  pc s := by simp
  instrs _ s := by simp
  irqs s stream := by rw [ha, hv, State.storeWord_withIrqs]

theorem storeDword {a : State → Addr} {v : State → Dword}
    (hwords : ∀ s, (i.writes s).words = storedWords s (dwordAddrs (a s)) := by intros; rfl)
    (hw : ∀ s, i.memoryWords s = dwordAddrs (a s) := by intros; rfl)
    (ha : ∀ (s : State) stream, a (s.withIrqs stream) = a s := by intros; rfl)
    (hv : ∀ (s : State) stream, v (s.withIrqs stream) = v s := by intros; rfl) :
    PartOf i fun s => s.storeDword (a s) (v s) where
  frame s := by
    refine Frame.storeDword _ s _ _ (fun c hc h => ?_) fun _ hc => devices_of_mem (hw s) hc
    rw [hwords]
    exact List.mem_filter.2 ⟨hc, by simp [h]⟩
  slots s := ⟨fun h => State.storeDword_wf h _, by simp, by simp⟩
  pc s := by simp
  instrs _ s := by simp
  irqs s stream := by rw [ha, hv, State.storeDword_withIrqs]

theorem afterSr {p : Pred} {dst : Reg} {a : SrAddr} : PartOf (.srr p dst a) fun s => s.afterSr a where
  frame s := Frame.afterRead _ s _ _ fun h => by simp [Instr.writes, Instr.reachesDevice, Instr.srAddr, h]
  slots s := by constructor <;> simp
  pc s := by simp
  instrs _ s := by simp
  irqs s stream := s.afterSr_withIrqs stream a

theorem storeSr {p : Pred} {src : Reg} {a : SrAddr} : PartOf (.srw p src a) fun s => s.storeSr a (s.reg src) where
  frame s := by
    apply Frame.storeSr
    case hd => exact fun h => by simp [Instr.writes, Instr.reachesDevice, Instr.srAddr, h]
    all_goals exact fun h => beq_iff_eq.2 (BitVec.eq_of_toNat_eq h)
  slots s := by
    cases h : s.srDevice a with
    | none => simpa only [State.storeSr_base h] using writeSr_slots s a _
    | some d => simpa only [State.storeSr_device h] using ⟨id, rfl, rfl⟩
  pc s := by
    cases h : s.srDevice a with
    | none => simpa only [State.storeSr_base h] using writeSr_pc s a _
    | some d => simp [State.storeSr_device h]
  instrs hi s := by
    have ha : a ≠ 5 := fun e => hi p src (by rw [e])
    cases h : s.srDevice a with
    | none => simpa only [State.storeSr_base h] using writeSr_instrs s _ ha
    | some d => simp [State.storeSr_device h]
  irqs s stream := s.storeSr_withIrqs stream a (s.reg src)

end PartOf

/-! ### The effect of an instruction -/

/-- `f` is the effect of the instruction `i`: what `i` does to a state where its predicate is True and something answers
its access, before it is counted (30_encoding.md R118). -/
structure HasEffect (i : Instr) (f : State → State) : Prop where
  exec : ∀ s, exec i s = guarded i.predicate s (onMemory s (i.memoryWords s) (.next (f s)))
  frame : ∀ s, Frame (i.writes s) s (f s)
  slots : ∀ s, KeepsSlots s (f s)
  pcEven : ∀ s : State, s.pc.getLsbD 0 = false → (f s).pc.getLsbD 0 = false
  sequential : transfersControl i = false → ∀ s, (f s).pc = s.pc + 4
  instrs : (∀ p r, i ≠ .srw p r 5) → ∀ s, (f s).instrs = s.instrs
  irqs : ∀ (s : State) stream, f (s.withIrqs stream) = (f s).withIrqs stream

/-- The instruction after the one at an even address is at an even address. -/
theorem even_add_four {a : Addr} (h : a.getLsbD 0 = false) : (a + 4).getLsbD 0 = false := by
  simp only [BitVec.getLsbD, Nat.testBit_zero, decide_eq_false_iff_not] at h ⊢
  rw [BitVec.toNat_add]
  show ¬ (a.toNat + 4) % 2 ^ 32 % 2 = 1
  omega

section hasEffect
variable {i : Instr}

/-- The effect of an instruction that ends with control at the next one. -/
theorem HasEffect.of_advance {g : State → State}
    (hexec : ∀ s, Machine.exec i s = guarded i.predicate s (onMemory s (i.memoryWords s) (.next (g s).advance)))
    (hpart : PartOf i g) : HasEffect i fun s => (g s).advance where
  exec := hexec
  frame s := (hpart.frame s).advance
  slots s := ⟨(hpart.slots s).wf, (hpart.slots s).zeroSlot, (hpart.slots s).trueSlot⟩
  pcEven s h := by
    rw [State.advance_pc, hpart.pc, nextPc_eq]
    exact even_add_four h
  sequential _ s := by rw [State.advance_pc, hpart.pc, nextPc_eq]
  instrs h s := hpart.instrs h s
  irqs s stream := by
    rw [hpart.irqs]
    rfl

/-- The effect of a branch, taken as `b` says (45_branch.md R320). -/
theorem HasEffect.branch {b : State → Bool} {imm17 : BitVec 17}
    (hexec : ∀ s, Machine.exec i s =
      guarded i.predicate s (onMemory s (i.memoryWords s) (.next (branchEffect (b s) imm17 s))))
    (hcontrol : transfersControl i = true := by rfl)
    (hb : ∀ (s : State) stream, b (s.withIrqs stream) = b s := by intros; rfl)
    (hw : ∀ s, i.writes s = { regs := [linkReg] } := by intros; rfl) :
    HasEffect i fun s => branchEffect (b s) imm17 s where
  exec := hexec
  frame s := hw s ▸ (branchEffect_frame (b s) imm17 s).of_retire
  slots s := by
    cases b s
    · exact ⟨id, rfl, rfl⟩
    · exact ⟨id, s.setReg_zeroSlot linkReg _, rfl⟩
  pcEven s h := by
    cases b s
    · exact even_add_four h
    · exact clearBit0_getLsbD_zero _
  sequential h := by simp [hcontrol] at h
  instrs _ s := by cases b s <;> rfl
  irqs s stream := by
    rw [hb]
    cases b s <;> rfl

/-- The effect of a jump to an even target (46_jump.md R340). -/
theorem HasEffect.jump {target : State → Addr}
    (hexec : ∀ s, Machine.exec i s = guarded i.predicate s (onMemory s (i.memoryWords s)
      (.next ((s.setReg linkReg (nextPc s.pc)).setPc (target s)))))
    (hcontrol : transfersControl i = true := by rfl)
    (ht : ∀ (s : State) stream, target (s.withIrqs stream) = target s := by intros; rfl)
    (heven : ∀ s, (target s).getLsbD 0 = false := by intros; exact clearBit0_getLsbD_zero _)
    (hw : ∀ s, i.writes s = { regs := [linkReg] } := by intros; rfl) :
    HasEffect i fun s => (s.setReg linkReg (nextPc s.pc)).setPc (target s) where
  exec := hexec
  frame s := hw s ▸ (link_spec s (target s)).1.of_retire
  slots s := ⟨id, s.setReg_zeroSlot linkReg _, rfl⟩
  pcEven s _ := heven s
  sequential h := by simp [hcontrol] at h
  instrs _ _ := rfl
  irqs s stream := by
    rw [ht]
    rfl

/-- The effect of `iret` (46_jump.md R343). -/
theorem HasEffect.iret (p : Pred) : HasEffect (.iret p) fun s => s.returnFromTrap where
  exec _ := rfl
  frame s := (returnFromTrap_frame s).of_retire
  slots _ := ⟨id, rfl, rfl⟩
  pcEven _ _ := clearBit0_getLsbD_zero _
  sequential h := by cases h
  instrs _ _ := rfl
  irqs _ _ := rfl

/-- A trap vector is at an even address (60_exceptions.md R402). -/
theorem takeTrap_pc_even (s : State) (n : Nat) (ret : Addr) : (s.takeTrap n ret).pc.getLsbD 0 = false := by
  rw [State.takeTrap_pc, vectorStride_eq, BitVec.getLsbD_ofNat, Nat.testBit_zero]
  simp
  omega

/-- The effect of `trap` (48_misc_system.md R373). -/
theorem HasEffect.trap (p : Pred) (imm16 : BitVec 16) :
    HasEffect (.trap p imm16) fun s => s.takeTrap (trapNumber imm16) (nextPc s.pc) where
  exec _ := rfl
  frame s := (takeTrap_frame s _ _).of_retire
  slots _ := ⟨id, rfl, rfl⟩
  pcEven s _ := takeTrap_pc_even s _ _
  sequential h := by cases h
  instrs _ _ := rfl
  irqs _ _ := rfl

end hasEffect

/-- Every instruction has an effect: each is a composition of the parts above, as its rule says (40 to 48). -/
theorem exists_hasEffect (i : Instr) : ∃ f, HasEffect i f := by
  cases i with
  | nop => exact ⟨_, .of_advance (fun _ => rfl) .start⟩
  | and | ior | xor | sl | sr | sar | andi | iori | xori | sli | sri | sari | muls | divs | mulf | divf | mulsi | divsi
  | mulfi | divfi | aand | aandi | aior | aiori | axor | axori | asl | asli | asr | asri | asar | asari | amuls | amulsi
  | amulf | amulfi | adivs | adivsi | adivf | adivfi => exact ⟨_, .of_advance (fun _ => rfl) (.putResult .start)⟩
  | se | sne | sei | snei | slt | snlt | slti | snlti | sgt | sngt | sgti | sngti | set | clr =>
    exact ⟨_, .of_advance (fun _ => rfl) (.setReg .start)⟩
  | add | addi | adc | adci | sub | subi | suc | suci | slc | slci | src | srci | aadd | aaddi | aadc | aadci | asub
  | asubi | asuc | asuci | aslc | aslci | asrc | asrci =>
    exact ⟨_, .of_advance (fun _ => rfl) (.setCarry (.putResult .start))⟩
  | mul | muli | amul | amuli => exact ⟨_, .of_advance (fun _ => rfl) (.setMulms (.putResult .start))⟩
  | div | divi | adiv | adivi => exact ⟨_, .of_advance (fun _ => rfl) (.setDivmso (.putResult .start))⟩
  | spc | spnc | spe | spne | spl | spnl | spg | spng | spt | spf =>
    exact ⟨_, .of_advance (fun _ => rfl) (.setPred .start)⟩
  | ld | ald => exact ⟨_, .of_advance (fun _ => rfl) (.putResult .afterDword fun s stream => s.loadDword_withIrqs stream _)⟩
  | ldu | lds | aldu | alds => exact ⟨_, .of_advance (fun _ => rfl) (.putResult .afterWord)⟩
  | pop p dst rs1 | apop p dst rs1 =>
    refine ⟨_, .of_advance (fun _ => rfl)
      (.setReg (.putResult .afterDword fun s stream => s.loadDword_withIrqs stream _) fun s stream => ?_)⟩
    simp only [State.afterDword_withIrqs]
    rfl
  | str => exact ⟨_, .of_advance (fun _ => rfl) .storeDword⟩
  | stu | sts => exact ⟨_, .of_advance (fun _ => rfl) .storeWord⟩
  | push =>
    refine ⟨_, .of_advance (fun _ => rfl) (.setReg .storeDword fun s stream => ?_)⟩
    simp only [State.storeDword_reg]
    rfl
  | srr => exact ⟨_, .of_advance (fun _ => rfl) (.setReg .afterSr)⟩
  | srw => exact ⟨_, .of_advance (fun _ => rfl) .storeSr⟩
  | brc | brnc | bre | brne | brl | brnl | brg | brng | br => exact ⟨_, .branch fun _ => rfl⟩
  | jmp | jr => exact ⟨_, .jump fun _ => rfl⟩
  | iret p => exact ⟨_, .iret p⟩
  | trap p imm16 => exact ⟨_, .trap p imm16⟩

end Sys2Proof.Machine

/-! Proofs about every instruction and every step: completion, frames, the instruction count, control, the invariant and
interrupts (10_state.md, 60_exceptions.md). -/

namespace Sys2Proof.Machine

/-! ### What `exec` can answer -/

/-- An instruction whose predicate is False only advances `pc`. -/
theorem exec_of_pred_false {i : Instr} {s : State} (h : s.pred i.predicate = false) : exec i s = .next s.advance := by
  obtain ⟨f, hf⟩ := exists_hasEffect i
  rw [hf.exec, guarded_false h]

/-- An instruction that goes on either had its effect and was counted, or was skipped. -/
theorem exec_next_cases {i : Instr} {s t : State} (h : exec i s = .next t) :
    (s.pred i.predicate = true ∧ ∃ f, HasEffect i f ∧ t = (f s).retire) ∨
      (s.pred i.predicate = false ∧ t = s.advance) := by
  obtain ⟨f, hf⟩ := exists_hasEffect i
  rw [hf.exec] at h
  exact (guarded_onMemory_next_cases h).imp_left fun ⟨hp, _, ht⟩ => ⟨hp, f, hf, ht⟩

/-- Counting the instruction is in every frame. -/
theorem Frame.retire {w : Writes} {s t : State} (h : Frame w s t) : Frame w s t.retire :=
  ⟨h.regs, h.preds, h.carry, h.acarry, h.ien, h.cycles, h.mulms, h.divmsi, h.divmso, h.pcSave, h.bytes,
    h.deviceLog, h.memoryMap, h.extraSr, h.irqs, h.draws⟩

/-- An instruction stays in the frame of what it may write. -/
theorem exec_frame {i : Instr} {s t : State} (h : exec i s = .next t) : Frame (i.writes s) s t := by
  rcases exec_next_cases h with ⟨-, f, hf, rfl⟩ | ⟨-, rfl⟩
  · exact (hf.frame s).retire
  · exact (Frame.refl _ s).advance

/-- Settles O19: the predicate, then the access, decide what an instruction answers. -/
theorem everyInstructionCompletes : Obligations.EveryInstructionCompletes := by
  unfold Obligations.EveryInstructionCompletes
  intro i s
  obtain ⟨f, hf⟩ := exists_hasEffect i
  constructor
  · intro hpresent
    cases hp : s.pred i.predicate
    · exact ⟨_, exec_of_pred_false hp⟩
    · exact ⟨_, (hf.exec s).trans (guarded_onMemory_present hp hpresent (f s))⟩
  · intro hp habsent
    obtain ⟨a, hmem, hnothing, hfault⟩ := guarded_onMemory_absent hp habsent
    exact ⟨a, hmem, hnothing, (hf.exec s).trans (hfault _)⟩

/-- Settles O20: advancing `pc` is all that a skipped instruction does. -/
theorem predicatedOff : Obligations.PredicatedOff := by
  unfold Obligations.PredicatedOff
  exact fun _ _ h => exec_of_pred_false h

/-- Settles O21: only `srw` to `instrs` writes the count before it is increased. -/
theorem instructionsCounted : Obligations.InstructionsCounted := by
  unfold Obligations.InstructionsCounted
  intro i s t hp h
  constructor
  · intro hother
    rcases exec_next_cases h with ⟨-, f, hf, rfl⟩ | ⟨hfalse, -⟩
    · rw [State.retire_instrs, hf.instrs hother]
    · simp [hp] at hfalse
  · rintro p r rfl
    rw [exec_srw_base (p := p) hp r (s.srDevice_of_lt (a := 5) (by decide))] at h
    cases h
    rfl

/-- Settles O22: `exec_frame`, from the frame of every effect. -/
theorem onlyNamedWrites : Obligations.OnlyNamedWrites := by
  unfold Obligations.OnlyNamedWrites
  exact fun _ _ _ h => exec_frame h

/-- Settles O23: the frames of the other instructions name no predicate, and `p0` reads True in every state. -/
theorem predicateWriters : Obligations.PredicateWriters := by
  unfold Obligations.PredicateWriters
  intro i s t q h hne
  have hwritten : q ∈ (i.writes s).preds := by
    by_contra hnot
    exact hne ((exec_frame h).preds q hnot)
  refine ⟨?_, ?_⟩
  · rintro rfl
    exact hne rfl
  · cases i with
    | spc p | spnc p | spt p | spf p =>
      cases List.mem_singleton.1 hwritten
      exact ⟨p, 0, 0, by simp⟩
    | spe p _ rs1 rs2 | spne p _ rs1 rs2 | spl p _ rs1 rs2 | spnl p _ rs1 rs2 | spg p _ rs1 rs2 | spng p _ rs1 rs2 =>
      cases List.mem_singleton.1 hwritten
      exact ⟨p, rs1, rs2, by simp⟩
    | _ => cases hwritten

/-- Settles O24: the frames of the other instructions do not name `sr.carry`. -/
theorem carryWriters : Obligations.CarryWriters := by
  unfold Obligations.CarryWriters
  intro i s t h hne
  have hwritten : (i.writes s).carry = true := by
    by_contra hnot
    exact hne ((exec_frame h).carry (by simpa using hnot))
  cases i with
  | add p dst rs1 rs2 | aadd p dst rs1 rs2 | adc p dst rs1 rs2 | aadc p dst rs1 rs2 | sub p dst rs1 rs2
  | asub p dst rs1 rs2 | suc p dst rs1 rs2 | asuc p dst rs1 rs2 | slc p dst rs1 rs2 | aslc p dst rs1 rs2
  | src p dst rs1 rs2 | asrc p dst rs1 rs2 => exact ⟨p, dst, rs1, rs2, false, 0, by simp⟩
  | addi p dst rs1 ul imm16 | aaddi p dst rs1 ul imm16 | adci p dst rs1 ul imm16 | aadci p dst rs1 ul imm16
  | subi p dst rs1 ul imm16 | asubi p dst rs1 ul imm16 | suci p dst rs1 ul imm16 | asuci p dst rs1 ul imm16
  | slci p dst rs1 ul imm16 | aslci p dst rs1 ul imm16 | srci p dst rs1 ul imm16 | asrci p dst rs1 ul imm16 =>
    exact ⟨p, dst, rs1, 0, ul, imm16, by simp⟩
  | srw p src a =>
    have ha : a = 9 := by simpa [Instr.writes, Instr.writesInside] using hwritten
    exact ⟨p, src, 0, 0, false, 0, by simp [ha]⟩
  | _ => cases hwritten

/-- Settles O25: every other effect ends with control at the next instruction, and so does a skipped instruction. -/
theorem controlTransfers : Obligations.ControlTransfers := by
  unfold Obligations.ControlTransfers
  intro i s t h hne
  have htransfers : transfersControl i = true := by
    by_contra hnot
    rcases exec_next_cases h with ⟨-, f, hf, rfl⟩ | ⟨-, rfl⟩
    · exact hne (hf.sequential (by simpa using hnot) s)
    · exact hne rfl
  cases i with
  | brc p imm17 | brnc p imm17 | br p imm17 => exact ⟨p, 0, 0, imm17, 0, by simp⟩
  | bre p rs1 rs2 imm17 | brne p rs1 rs2 imm17 | brl p rs1 rs2 imm17 | brnl p rs1 rs2 imm17 | brg p rs1 rs2 imm17
  | brng p rs1 rs2 imm17 => exact ⟨p, rs1, rs2, imm17, 0, by simp⟩
  | jmp p rs1 imm17 | jr p rs1 imm17 => exact ⟨p, rs1, 0, imm17, 0, by simp⟩
  | iret p => exact ⟨p, 0, 0, 0, 0, by simp⟩
  | trap p imm16 => exact ⟨p, 0, 0, 0, imm16, by simp⟩
  | _ => cases htransfers

/-! ### What a step can answer -/

/-- A step that goes on accepted an interrupt, or ran the instruction it fetched. -/
theorem step_next_cases {s t : State} (h : step s = .next t) :
    (∃ v, s.acceptedRequest = some v ∧ t = s.beginStep.acceptInterrupt v) ∨
      ∃ i, decode s.beginStep.fetch = .instr i ∧ exec i s.beginStep.afterFetch = .next t := by
  cases hreq : s.acceptedRequest with
  | some v =>
    simp only [step, hreq] at h
    cases h
    exact .inl ⟨v, rfl, rfl⟩
  | none =>
    right
    cases hdec : decode s.beginStep.fetch with
    | instr i =>
      rw [step_of_decoded hreq hdec] at h
      exact ⟨i, rfl, (onMemory_next h).2⟩
    | unassigned op =>
      rw [step_of_unassigned hreq hdec] at h
      cases (onMemory_next h).2

/-! ### The invariant (10_state.md R31, R36, R41, 20_memory.md R80) -/

/-- What a fetch keeps: it sees devices, and writes nothing. -/
theorem afterFetch_inv {s : State} (h : s.Inv) : s.beginStep.afterFetch.Inv := by
  obtain ⟨hmem, hpc, hzero, htrue⟩ := h
  constructor <;> simpa [State.afterFetch]

/-- Every instruction keeps the invariant. -/
theorem exec_inv {i : Instr} {s t : State} (hs : s.Inv) (h : exec i s = .next t) : t.Inv := by
  rcases exec_next_cases h with ⟨-, f, hf, rfl⟩ | ⟨-, rfl⟩
  · obtain ⟨hwf, hzero, htrue⟩ := hf.slots s
    exact ⟨hwf hs.mem, hf.pcEven s hs.pcEven, hzero.trans hs.zeroSlot, htrue.trans hs.trueSlot⟩
  · exact ⟨hs.mem, even_add_four hs.pcEven, hs.zeroSlot, hs.trueSlot⟩

/-- Settles O17: a trap vector is even, and every instruction keeps the invariant. -/
theorem stepKeepsInvariant : Obligations.StepKeepsInvariant := by
  unfold Obligations.StepKeepsInvariant
  intro s t hs h
  rcases step_next_cases h with ⟨v, -, rfl⟩ | ⟨i, -, hexec⟩
  · exact ⟨hs.mem, takeTrap_pc_even s.beginStep v.toNat s.pc, hs.zeroSlot, hs.trueSlot⟩
  · exact exec_inv (afterFetch_inv hs) hexec

/-- Settles O16: the memory after reset is empty, `pc` is 0, and the hard-wired slots hold their constants. -/
theorem resetInvariant : Obligations.ResetInvariant := by
  unfold Obligations.ResetInvariant
  exact ⟨by decide, by decide, by decide, by decide⟩

/-- Settles O18: each value stands in `State.reset`, or is read from it by `readSr`. -/
theorem resetValues : Obligations.ResetValues := by
  unfold Obligations.ResetValues
  and_intros <;> rfl

/-! ### The boundary before an instruction (60_exceptions.md R404 to R406) -/

/-- Settles O12: the enabled request at the head of the stream is accepted, by a trap entry that is counted. -/
theorem interruptAccepted : Obligations.InterruptAccepted := by
  unfold Obligations.InterruptAccepted
  intro s v rest hien hirqs
  have hreq : s.acceptedRequest = some v := by simp [State.acceptedRequest, hien, hirqs]
  have hvector : 8 * v.toNat < 2 ^ 32 := by omega
  refine ⟨s.beginStep.acceptInterrupt v, by simp only [step, hreq], rfl,
    takeTrap_pc_toNat s.beginStep s.pc hvector, rfl, rfl, ?_, ?_⟩
  · show s.irqs.tail = rest
    rw [hirqs, List.tail_cons]
  · constructor <;> simp [State.acceptInterrupt, State.reg, State.pred]

/-- A fetch sees nothing of the requests. -/
theorem fetch_withIrqs (s : State) (stream : List (Option (BitVec 7))) :
    (s.withIrqs stream).fetch = s.fetch ∧ (s.withIrqs stream).afterFetch = s.afterFetch.withIrqs stream := by
  have hpc : (s.withIrqs stream).pc = s.pc := rfl
  constructor
  · simp only [State.fetch, hpc, State.afterDword_withIrqs, State.loadDword_withIrqs]
  · simp only [State.afterFetch, hpc, State.afterDword_withIrqs]

/-- An answer with another stream of requests in the state it goes on with. -/
def withIrqsOf (stream : List (Option (BitVec 7))) (r : Result) : Result :=
  match r with
  | .next t => .next (t.withIrqs stream)
  | .fault e => .fault e
  | .refused e => .refused e

theorem onMemory_withIrqs (s : State) (stream : List (Option (BitVec 7))) (ws : List Addr) (k : Result) :
    onMemory (s.withIrqs stream) ws (withIrqsOf stream k) = withIrqsOf stream (onMemory s ws k) := by
  have hmemory : ∀ a, (s.withIrqs stream).memoryAt a = s.memoryAt a := fun _ => rfl
  simp only [onMemory, hmemory]
  split <;> rfl

theorem guarded_withIrqs (p : Pred) (s : State) (stream : List (Option (BitVec 7))) (k : Result) :
    guarded p (s.withIrqs stream) (withIrqsOf stream k) = withIrqsOf stream (guarded p s k) := by
  cases hp : s.pred p
  · rw [guarded_false hp, guarded_false (s := s.withIrqs stream) hp]
    rfl
  · rw [guarded_true hp, guarded_true (s := s.withIrqs stream) hp]
    cases k <;> rfl

/-- The access of an instruction depends on the data registers alone. -/
theorem memoryWords_congr (i : Instr) {s t : State} (h : ∀ r, t.reg r = s.reg r) :
    i.memoryWords t = i.memoryWords s := by
  cases i with
  | ld | pop | str | push | ald | apop | ldu | lds | stu | sts | aldu | alds => simp only [Instr.memoryWords, h]
  | _ => rfl

/-- No instruction sees the requests. -/
theorem exec_withIrqs (i : Instr) (s : State) (stream : List (Option (BitVec 7))) :
    exec i (s.withIrqs stream) = withIrqsOf stream (exec i s) := by
  obtain ⟨f, hf⟩ := exists_hasEffect i
  rw [hf.exec, hf.exec, memoryWords_congr i (s := s) fun _ => rfl, hf.irqs, ← guarded_withIrqs, ← onMemory_withIrqs]
  rfl

/-- A step with interrupts disabled sees nothing of the requests but that one boundary is past. -/
theorem step_withIrqs {s : State} (h : s.ien = false) (stream : List (Option (BitVec 7))) :
    step (s.withIrqs stream) = withIrqsOf stream.tail (step s) := by
  have hreq : s.acceptedRequest = none := acceptedRequest_eq_none (.inl h)
  have hreq' : (s.withIrqs stream).acceptedRequest = none := acceptedRequest_eq_none (.inl h)
  have hbegin : (s.withIrqs stream).beginStep = s.beginStep.withIrqs stream.tail := rfl
  obtain ⟨hfetch, hafter⟩ := fetch_withIrqs s.beginStep stream.tail
  cases hdec : decode s.beginStep.fetch with
  | instr i =>
    have hdec' : decode (s.withIrqs stream).beginStep.fetch = .instr i := by rw [hbegin, hfetch, hdec]
    rw [step_of_decoded hreq hdec, step_of_decoded hreq' hdec', hbegin, hafter, exec_withIrqs]
    exact onMemory_withIrqs ..
  | unassigned op =>
    have hdec' : decode (s.withIrqs stream).beginStep.fetch = .unassigned op := by rw [hbegin, hfetch, hdec]
    rw [step_of_unassigned hreq hdec, step_of_unassigned hreq' hdec', hbegin]
    exact onMemory_withIrqs (k := .refused (.unassignedOpcode op)) ..

/-- Settles O13: `step_withIrqs` at each answer of the step. -/
theorem disabledInterruptsUnseen : Obligations.DisabledInterruptsUnseen := by
  unfold Obligations.DisabledInterruptsUnseen
  intro s stream hien
  have hstep := step_withIrqs hien stream
  cases h : step s <;> exact hstep.trans (by rw [h]; rfl)

/-- The maps of the platform are never changed by a step that goes on. -/
theorem step_maps {s t : State} (h : step s = .next t) : t.memoryMap = s.memoryMap ∧ t.extraSr = s.extraSr := by
  rcases step_next_cases h with ⟨v, -, rfl⟩ | ⟨i, -, hexec⟩
  · exact ⟨rfl, rfl⟩
  · have hframe := exec_frame hexec
    have hfetch := Frame.afterFetch { devices := true } s.beginStep rfl
    exact ⟨hframe.memoryMap.trans hfetch.memoryMap, hframe.extraSr.trans hfetch.extraSr⟩

/-- A fetch with a word where nothing answers faults at such a word, whatever is decoded (log 15). -/
theorem step_fetch_absent {s : State} (hreq : s.acceptedRequest = none)
    (h : ∃ a ∈ fetchWords s.pc, s.memoryAt a = .absent) :
    ∃ a ∈ fetchWords s.pc, s.memoryAt a = .absent ∧ step s = .fault (.nothingAt a) := by
  obtain ⟨a, hmem, habsent, hfault⟩ := onMemory_absent (s := s.beginStep) h
  refine ⟨a, hmem, habsent, ?_⟩
  cases hdec : decode s.beginStep.fetch with
  | instr i => rw [step_of_decoded hreq hdec, hfault]
  | unassigned op => rw [step_of_unassigned hreq hdec, hfault]

/-- A step at whose fetch something answers refuses an unassigned opcode (30_encoding.md R122). -/
theorem step_refused {s : State} {op : Opcode} (hreq : s.acceptedRequest = none)
    (hmem : ∀ a ∈ fetchWords s.pc, s.memoryAt a ≠ .absent) (hdec : decode s.beginStep.fetch = .unassigned op) :
    step s = .refused (.unassignedOpcode op) := by
  rw [step_of_unassigned hreq hdec]
  exact onMemory_present (s := s.beginStep) hmem _

/-- An instruction whose fetch something answers goes on, or faults at a word of its access where nothing answers. -/
theorem exec_next_or_fault (i : Instr) (s : State) : (∃ t, exec i s = .next t) ∨
    ∃ a ∈ i.memoryWords s, s.memoryAt a = .absent ∧ s.pred i.predicate = true ∧ exec i s = .fault (.nothingAt a) := by
  obtain ⟨hgoes, hfaults⟩ := everyInstructionCompletes i s
  by_cases hall : ∀ a ∈ i.memoryWords s, s.memoryAt a ≠ .absent
  · exact .inl (hgoes hall)
  · cases hp : s.pred i.predicate
    · exact .inl ⟨_, exec_of_pred_false hp⟩
    · push Not at hall
      obtain ⟨a, hmem, habsent, hfault⟩ := hfaults hp hall
      exact .inr ⟨a, hmem, habsent, rfl, hfault⟩

/-- The state an instruction runs at has the registers, predicates and maps of the state the step began in. -/
theorem afterFetch_congr (s : State) : (∀ r, s.beginStep.afterFetch.reg r = s.reg r) ∧
    (∀ q, s.beginStep.afterFetch.pred q = s.pred q) ∧ ∀ a, s.beginStep.afterFetch.memoryAt a = s.memoryAt a := by
  have hfetch := Frame.afterFetch { devices := true } s.beginStep rfl
  exact ⟨fun r => hfetch.regs r (by simp), fun q => hfetch.preds q (by simp),
    State.memoryAt_congr hfetch.memoryMap⟩

/-- Settles O14: the request, the fetch, the decoder and the access decide, in this order, what a step answers. -/
theorem stepGoesOn : Obligations.StepGoesOn := by
  unfold Obligations.StepGoesOn
  intro s
  refine ⟨fun hboundary => ⟨fun op => step_refused (acceptedRequest_eq_none hboundary),
    step_fetch_absent (acceptedRequest_eq_none hboundary)⟩, ?_⟩
  cases hreq : s.acceptedRequest with
  | some v =>
    have hstep : step s = .next (s.beginStep.acceptInterrupt v) := by simp only [step, hreq]
    exact .inl ⟨_, hstep, step_maps hstep⟩
  | none =>
    by_cases hfetch : ∃ a ∈ fetchWords s.pc, s.memoryAt a = .absent
    · obtain ⟨a, hmem, habsent, hfault⟩ := step_fetch_absent hreq hfetch
      exact .inr (.inr ⟨a, hfault, habsent, .inl hmem⟩)
    · push Not at hfetch
      cases hdec : decode s.beginStep.fetch with
      | unassigned op => exact .inr (.inl ⟨op, step_refused hreq hfetch hdec, rfl⟩)
      | instr i =>
        have hstep := step_of_instr hreq hfetch hdec
        obtain ⟨hregs, hpreds, hmemory⟩ := afterFetch_congr s
        rcases exec_next_or_fault i s.beginStep.afterFetch with ⟨t, ht⟩ | ⟨a, hmem, habsent, hp, hfault⟩
        · exact .inl ⟨t, hstep.trans ht, step_maps (hstep.trans ht)⟩
        · rw [memoryWords_congr i hregs] at hmem
          rw [hmemory] at habsent
          rw [hpreds] at hp
          exact .inr (.inr ⟨a, hstep.trans hfault, habsent, .inr ⟨i, rfl, hp, hmem⟩⟩)

/-- A read of a device changes what devices have seen, and nothing else. -/
theorem State.exists_afterRead_eq (s : State) (d : Option DeviceId) (x : DeviceAccess) :
    ∃ log, s.afterRead d x = { s with deviceLog := log } := by
  cases d with
  | none => exact ⟨s.deviceLog, rfl⟩
  | some d => exact ⟨_, rfl⟩

/-- A 32-bit read changes what devices have seen, and nothing else (20_memory.md R93). -/
theorem State.exists_afterDword_eq (s : State) (a : Addr) : ∃ log, s.afterDword a = { s with deviceLog := log } := by
  unfold State.afterDword
  dsimp only
  split
  · exact s.exists_afterRead_eq _ _
  · obtain ⟨log, hfirst⟩ := s.exists_afterRead_eq (s.deviceAt (clearBit0 a)) (.readWord (clearBit0 a))
    obtain ⟨log', hsecond⟩ := (s.afterWord (clearBit0 a)).exists_afterRead_eq
      ((s.afterWord (clearBit0 a)).deviceAt (clearBit0 a + 1)) (.readWord (clearBit0 a + 1))
    exact ⟨log', hsecond.trans (by rw [State.afterWord, hfirst])⟩

/-- A fetch changes what devices have seen, and nothing else. -/
theorem State.afterFetch_eq (s : State) : s.afterFetch = { s with deviceLog := s.afterFetch.deviceLog } := by
  obtain ⟨log, hlow⟩ := s.exists_afterDword_eq s.pc
  obtain ⟨log', hhigh⟩ := (s.afterDword s.pc).exists_afterDword_eq (s.pc + 2)
  have hfetch : s.afterFetch = { s with deviceLog := log' } := hhigh.trans (by rw [hlow])
  rw [hfetch]

/-- Settles O10: `step_of_instr` runs the instruction, and a fetch changes what devices have seen at most. -/
theorem stepRunsDecodedInstruction : Obligations.StepRunsDecodedInstruction := by
  unfold Obligations.StepRunsDecodedInstruction
  intro s i hboundary hpresent hdec
  refine ⟨step_of_instr (acceptedRequest_eq_none hboundary) hpresent hdec, rfl, s.beginStep.afterFetch_eq,
    fun hram => ?_⟩
  exact State.fetch_memory (s := s.beginStep) fun a ha => State.deviceAt_of_ram (hram a ha)

end Sys2Proof.Machine

/-! Proofs about 40_arith_addsub_logic.md and 41_arith_shift.md: every form of the add, subtract, bitwise and shift
instructions. -/

namespace Sys2Proof.Machine

section executed
variable {p : Pred} {s : State}

/-! ### Executed instructions, by the effect they share -/

/-- An executed instruction that writes its result and nothing else. -/
theorem guarded_plain (hp : s.pred p = true) (m : Modifier) (dst : Reg) (v : Dword) :
    ∃ t, guarded p s (.next (plainEffect m dst v s)) = .next t ∧ PutsResult m dst v s t ∧
      Sequential { regs := [dst], acarry := true } s t := by
  obtain ⟨hseq, hputs⟩ := plainEffect_spec m dst v s
  exact ⟨_, guarded_true hp _, hputs, hseq⟩

/-- The same, with the result known bit by bit. -/
theorem guarded_plain_bits (hp : s.pred p = true) (m : Modifier) (dst : Reg) {v : Dword} {bit : Nat → Bool}
    (hv : ∀ k < 32, v.getLsbD k = bit k) :
    ∃ t v', guarded p s (.next (plainEffect m dst v s)) = .next t ∧ (∀ k < 32, v'.getLsbD k = bit k) ∧
      PutsResult m dst v' s t ∧ Sequential { regs := [dst], acarry := true } s t := by
  obtain ⟨t, hexec, hputs, hseq⟩ := guarded_plain hp m dst v
  exact ⟨t, v, hexec, hv, hputs, hseq⟩

/-- An executed `add` or `adc` (40_arith_addsub_logic.md R154). -/
theorem guarded_add (hp : s.pred p = true) (m : Modifier) (dst : Reg) (a b : Dword) (c : Bool) :
    ∃ t, guarded p s (.next (addEffect m dst a b c s)) = .next t ∧
      PutsResult m dst (BitVec.ofNat 32 (a.toNat + b.toNat + c.toNat)) s t ∧
      t.carry = decide (2 ^ 32 ≤ a.toNat + b.toNat + c.toNat) ∧
      Sequential { regs := [dst], carry := true, acarry := true } s t := by
  obtain ⟨hseq, hputs, hcarry⟩ := addEffect_spec m dst a b c s
  exact ⟨_, guarded_true hp _, hputs, hcarry, hseq⟩

/-- An executed `sub` or `suc`, with the borrow as carry (40_arith_addsub_logic.md R154). -/
theorem guarded_sub (hp : s.pred p = true) (m : Modifier) (dst : Reg) (a b : Dword) (c : Bool) :
    ∃ t, guarded p s (.next (subEffect m dst a b c s)) = .next t ∧
      PutsResult m dst (a - b - BitVec.ofNat 32 c.toNat) s t ∧ t.carry = decide (a.toNat < b.toNat + c.toNat) ∧
      Sequential { regs := [dst], carry := true, acarry := true } s t := by
  obtain ⟨hseq, hputs, hcarry⟩ := subEffect_spec m dst a b c s
  rw [subB_result] at hputs
  rw [subB_borrow] at hcarry
  exact ⟨_, guarded_true hp _, hputs, hcarry, hseq⟩

/-- An executed shift through carry whose amount the spec specifies: result and carry are the ones shifted
(41_arith_shift.md R202). -/
theorem guarded_carryShift (hp : s.pred p = true) (m : Modifier) (dst : Reg) {x : Option (Dword × Bool)} {bit : Nat → Bool}
    {c : Bool} (hx : ∃ v, x = some (v, c) ∧ ∀ k < 32, v.getLsbD k = bit k) :
    ∃ t v, guarded p s (.next (carryShiftEffect m dst x s)) = .next t ∧ (∀ k < 32, v.getLsbD k = bit k) ∧
      t.carry = c ∧ PutsResult m dst v s t ∧ Sequential { regs := [dst], carry := true, acarry := true } s t := by
  obtain ⟨v, rfl, hbits⟩ := hx
  obtain ⟨hseq, hputs, hcarry⟩ := carryShiftEffect_spec m dst (some (v, c)) s
  exact ⟨_, v, guarded_true hp _, hbits, hcarry, hputs, hseq⟩

/-- An executed shift through carry completes whatever its amount, with one result and one carry (log 6). -/
theorem guarded_carryShift_any (hp : s.pred p = true) (m : Modifier) (dst : Reg) (x : Option (Dword × Bool)) :
    ∃ t v, guarded p s (.next (carryShiftEffect m dst x s)) = .next t ∧ PutsResult m dst v s t ∧
      Sequential { regs := [dst], carry := true, acarry := true } s t := by
  obtain ⟨hseq, hputs, -⟩ := carryShiftEffect_spec m dst x s
  exact ⟨_, _, guarded_true hp _, hputs, hseq⟩

end executed

/-! ### Add and subtract (40_arith_addsub_logic.md R160 to R175) -/

/-- Settles O26: `guarded_add` at each of the eight forms. -/
theorem addInstructions : Obligations.AddInstructions := by
  unfold Obligations.AddInstructions
  intro p dst rs1 rs2 ul imm16 s hp imm i m b c hi sum
  simp only [List.mem_cons, List.not_mem_nil, or_false, Prod.mk.injEq] at hi
  obtain ⟨rfl, rfl, rfl, rfl⟩ | ⟨rfl, rfl, rfl, rfl⟩ | ⟨rfl, rfl, rfl, rfl⟩ | ⟨rfl, rfl, rfl, rfl⟩ |
    ⟨rfl, rfl, rfl, rfl⟩ | ⟨rfl, rfl, rfl, rfl⟩ | ⟨rfl, rfl, rfl, rfl⟩ | ⟨rfl, rfl, rfl, rfl⟩ := hi
  iterate 4 exact guarded_add hp _ dst _ _ false
  iterate 4 exact guarded_add hp _ dst _ _ s.carry

/-- Settles O27: `guarded_sub` at each of the eight forms. -/
theorem subInstructions : Obligations.SubInstructions := by
  unfold Obligations.SubInstructions
  intro p dst rs1 rs2 ul imm16 s hp imm i m b c hi
  simp only [List.mem_cons, List.not_mem_nil, or_false, Prod.mk.injEq] at hi
  obtain ⟨rfl, rfl, rfl, rfl⟩ | ⟨rfl, rfl, rfl, rfl⟩ | ⟨rfl, rfl, rfl, rfl⟩ | ⟨rfl, rfl, rfl, rfl⟩ |
    ⟨rfl, rfl, rfl, rfl⟩ | ⟨rfl, rfl, rfl, rfl⟩ | ⟨rfl, rfl, rfl, rfl⟩ | ⟨rfl, rfl, rfl, rfl⟩ := hi
  iterate 4 exact guarded_sub hp _ dst _ _ false
  iterate 4 exact guarded_sub hp _ dst _ _ s.carry

/-- A 64-bit sum in two dwords: the carry out of the low ones goes into the high ones. -/
theorem append_add_carry (a1 a0 b1 b0 : Dword) :
    BitVec.ofNat 32 (a1.toNat + b1.toNat + (decide (2 ^ 32 ≤ a0.toNat + b0.toNat + false.toNat)).toNat) ++
      BitVec.ofNat 32 (a0.toNat + b0.toNat + false.toNat) = (a1 ++ a0) + (b1 ++ b0) := by
  apply BitVec.eq_of_toNat_eq
  have ha0 := a0.isLt
  have hb0 := b0.isLt
  rw [append_toNat, BitVec.toNat_add, append_toNat, append_toNat, BitVec.toNat_ofNat, BitVec.toNat_ofNat,
    Bool.toNat_false]
  by_cases hcarry : 2 ^ 32 ≤ a0.toNat + b0.toNat + 0
  · rw [decide_eq_true hcarry, Bool.toNat_true]
    omega
  · rw [decide_eq_false hcarry, Bool.toNat_false]
    omega

/-- Settles O29: the carry of the low sum is the carry into the high one, so that the two sums are one of 64 bits. -/
theorem twoDwordAddition : Obligations.TwoDwordAddition := by
  unfold Obligations.TwoDwordAddition
  intro p q lo hi a0 a1 b0 b1 s t u hp hq hlo hhi hne ha1 hb1 hadd hadc
  obtain ⟨t', ht, ⟨hlow, -⟩, hcarry, hseq⟩ := guarded_add hp .replace lo (s.reg a0) (s.reg b0) false
  obtain rfl : t' = t := by
    have h := ht.symm.trans hadd
    cases h
    rfl
  have hq' : t'.pred q = true := (hseq.frame.preds q (by simp)).trans hq
  obtain ⟨u', hu, ⟨hhigh, -⟩, -, hseq'⟩ := guarded_add hq' .replace hi (t'.reg a1) (t'.reg b1) t'.carry
  obtain rfl : u' = u := by
    have h := hu.symm.trans hadc
    cases h
    rfl
  have hkept : u'.reg lo = t'.reg lo := hseq'.frame.regs lo (by simpa using hne.symm)
  rw [hkept, hlow, hhigh, if_neg hlo, if_neg hhi, hcarry, hseq.frame.regs a1 (by simpa using ha1),
    hseq.frame.regs b1 (by simpa using hb1)]
  exact append_add_carry _ _ _ _

/-! ### Bitwise instructions (40_arith_addsub_logic.md R176 to R187) -/

/-- Settles O28: each operator bit by bit, at each of the twelve forms. -/
theorem logicInstructions : Obligations.LogicInstructions := by
  unfold Obligations.LogicInstructions
  intro p dst rs1 rs2 ul imm16 s hp imm i m b f hi
  simp only [List.mem_cons, List.not_mem_nil, or_false, Prod.mk.injEq] at hi
  obtain ⟨rfl, rfl, rfl, rfl⟩ | ⟨rfl, rfl, rfl, rfl⟩ | ⟨rfl, rfl, rfl, rfl⟩ | ⟨rfl, rfl, rfl, rfl⟩ |
    ⟨rfl, rfl, rfl, rfl⟩ | ⟨rfl, rfl, rfl, rfl⟩ | ⟨rfl, rfl, rfl, rfl⟩ | ⟨rfl, rfl, rfl, rfl⟩ |
    ⟨rfl, rfl, rfl, rfl⟩ | ⟨rfl, rfl, rfl, rfl⟩ | ⟨rfl, rfl, rfl, rfl⟩ | ⟨rfl, rfl, rfl, rfl⟩ := hi
  iterate 4 exact guarded_plain_bits hp _ dst fun _ _ => BitVec.getLsbD_and
  iterate 4 exact guarded_plain_bits hp _ dst fun _ _ => BitVec.getLsbD_or
  iterate 4 exact guarded_plain_bits hp _ dst fun _ _ => BitVec.getLsbD_xor

/-! ### Shifts (41_arith_shift.md R205 to R224) -/

/-- Settles O32: each shift bit by bit, at each of the twelve forms. -/
theorem shiftInstructions : Obligations.ShiftInstructions := by
  unfold Obligations.ShiftInstructions
  intro p dst rs1 rs2 ul imm16 s hp imm a left right arith i m b bit hi n
  simp only [List.mem_cons, List.not_mem_nil, or_false, Prod.mk.injEq] at hi
  obtain ⟨rfl, rfl, rfl, rfl⟩ | ⟨rfl, rfl, rfl, rfl⟩ | ⟨rfl, rfl, rfl, rfl⟩ | ⟨rfl, rfl, rfl, rfl⟩ |
    ⟨rfl, rfl, rfl, rfl⟩ | ⟨rfl, rfl, rfl, rfl⟩ | ⟨rfl, rfl, rfl, rfl⟩ | ⟨rfl, rfl, rfl, rfl⟩ |
    ⟨rfl, rfl, rfl, rfl⟩ | ⟨rfl, rfl, rfl, rfl⟩ | ⟨rfl, rfl, rfl, rfl⟩ | ⟨rfl, rfl, rfl, rfl⟩ := hi
  iterate 4 exact guarded_plain_bits hp _ dst fun k hk => shL_bit a n k hk
  iterate 4 exact guarded_plain_bits hp _ dst fun k _ => shR_bit a n k
  iterate 4 exact guarded_plain_bits hp _ dst fun k hk => shAR_bit a n k hk

/-- Settles O33: `shLC_bits` at each of the four forms. -/
theorem leftShiftsThroughCarry : Obligations.LeftShiftsThroughCarry := by
  unfold Obligations.LeftShiftsThroughCarry
  intro p dst rs1 rs2 ul imm16 s hp imm i m b hi n hn
  simp only [List.mem_cons, List.not_mem_nil, or_false, Prod.mk.injEq] at hi
  obtain ⟨rfl, rfl, rfl⟩ | ⟨rfl, rfl, rfl⟩ | ⟨rfl, rfl, rfl⟩ | ⟨rfl, rfl, rfl⟩ := hi
  all_goals exact guarded_carryShift hp _ dst (shLC_bits (s.reg rs1) n s.carry hn)

/-- Settles O34: `shRC_bits` at each of the four forms. -/
theorem rightShiftsThroughCarry : Obligations.RightShiftsThroughCarry := by
  unfold Obligations.RightShiftsThroughCarry
  intro p dst rs1 rs2 ul imm16 s hp imm i m b hi n hn
  simp only [List.mem_cons, List.not_mem_nil, or_false, Prod.mk.injEq] at hi
  obtain ⟨rfl, rfl, rfl⟩ | ⟨rfl, rfl, rfl⟩ | ⟨rfl, rfl, rfl⟩ | ⟨rfl, rfl, rfl⟩ := hi
  all_goals exact guarded_carryShift hp _ dst (shRC_bits (s.reg rs1) n s.carry hn)

/-- Settles O35: a shift through carry completes whatever its amount. -/
theorem shiftsThroughCarryBeyond32 : Obligations.ShiftsThroughCarryBeyond32 := by
  unfold Obligations.ShiftsThroughCarryBeyond32
  intro p dst rs1 rs2 ul imm16 s hp imm i m b hi _
  simp only [List.mem_cons, List.not_mem_nil, or_false, Prod.mk.injEq] at hi
  obtain ⟨rfl, rfl, rfl⟩ | ⟨rfl, rfl, rfl⟩ | ⟨rfl, rfl, rfl⟩ | ⟨rfl, rfl, rfl⟩ | ⟨rfl, rfl, rfl⟩ |
    ⟨rfl, rfl, rfl⟩ | ⟨rfl, rfl, rfl⟩ | ⟨rfl, rfl, rfl⟩ := hi
  all_goals exact guarded_carryShift_any hp _ dst _

end Sys2Proof.Machine

/-! Proofs about 42_arith_muldiv.md, 43_predicate.md and 47_compare.md: every form of the multiplies and divides, the
predicate instructions and the comparisons. -/

namespace Sys2Proof.Machine

section executed
variable {p : Pred} {s : State}

/-! ### Executed multiplies and divides (42_arith_muldiv.md R231 to R237) -/

/-- An executed `mul`: `mulms` and the result are together the product (42_arith_muldiv.md R231). -/
theorem guarded_mul (hp : s.pred p = true) (m : Modifier) (dst : Reg) (a b : Dword) :
    ∃ t r, guarded p s (.next (mulEffect m dst a b s)) = .next t ∧
      t.mulms.toNat * 2 ^ 32 + r.toNat = a.toNat * b.toNat ∧ PutsResult m dst r s t ∧
      Sequential { regs := [dst], acarry := true, mulms := true } s t := by
  obtain ⟨hseq, hputs, hmulms⟩ := mulEffect_spec m dst a b s
  exact ⟨_, _, guarded_true hp _, by rw [hmulms, mulU_product], hputs, hseq⟩

/-- An executed signed multiply (42_arith_muldiv.md R232). -/
theorem guarded_mulS (hp : s.pred p = true) (m : Modifier) (dst : Reg) (a b : Dword) :
    ∃ t r, guarded p s (.next (plainEffect m dst (mulS a b) s)) = .next t ∧
      r = BitVec.ofInt 32 (a.toInt * b.toInt) ∧ r = a * b ∧ PutsResult m dst r s t ∧
      Sequential { regs := [dst], acarry := true } s t := by
  obtain ⟨t, hexec, hputs, hseq⟩ := guarded_plain hp m dst (mulS a b)
  exact ⟨t, mulS a b, hexec, rfl, mulS_eq_mul a b, hputs, hseq⟩

/-- An executed fixed-point multiply (42_arith_muldiv.md R233). -/
theorem guarded_mulF (hp : s.pred p = true) (m : Modifier) (dst : Reg) (a b : Dword) :
    ∃ t, guarded p s (.next (plainEffect m dst (mulF a b) s)) = .next t ∧
      PutsResult m dst (BitVec.ofInt 32 ((a.toInt * b.toInt).fdiv (2 ^ 16))) s t ∧
      Sequential { regs := [dst], acarry := true } s t := by
  obtain ⟨t, hexec, hputs, hseq⟩ := guarded_plain hp m dst (mulF a b)
  rw [mulF_eq_fdiv] at hputs
  exact ⟨t, hexec, hputs, hseq⟩

/-- An executed unsigned divide by a divisor that is not 0: `divmso` and the result are together the quotient rounded
down (42_arith_muldiv.md R234). -/
theorem guarded_div (hp : s.pred p = true) (op : Opcode) (m : Modifier) (dst : Reg) (a : Dword) {b : Dword}
    (hb : b ≠ 0) :
    ∃ t r, guarded p s (.next (divEffect op m dst a b s)) = .next t ∧
      (t.divmso.toNat * 2 ^ 32 + r.toNat) * b.toNat ≤ s.divmsi.toNat * 2 ^ 32 + a.toNat ∧
      s.divmsi.toNat * 2 ^ 32 + a.toNat < (t.divmso.toNat * 2 ^ 32 + r.toNat + 1) * b.toNat ∧
      PutsResult m dst r s t ∧ Sequential { regs := [dst], acarry := true, divmso := true } s t := by
  obtain ⟨hseq, hputs, hdivmso⟩ := divEffect_spec op m dst a b s
  have hpos : 0 < b.toNat := Nat.pos_of_ne_zero fun h => hb (BitVec.eq_of_toNat_eq h)
  refine ⟨_, _, guarded_true hp _, ?_, ?_, hputs, hseq⟩
  · rw [hdivmso, divUOr0, if_neg hb, divU_quotient]
    exact Nat.div_mul_le_self _ _
  · rw [hdivmso, divUOr0, if_neg hb, divU_quotient]
    exact (Nat.lt_mul_div_succ _ hpos).trans_eq (Nat.mul_comm _ _)

/-- An executed unsigned divide by 0: the result and `divmso` are the open pair (42_arith_muldiv.md R237). -/
theorem guarded_div_zero (hp : s.pred p = true) (op : Opcode) (m : Modifier) (dst : Reg) (a : Dword) {b : Dword}
    (hb : b = 0) :
    ∃ t, guarded p s (.next (divEffect op m dst a b s)) = .next t ∧
      PutsResult m dst (Config.div0Wide op a s.divmsi).1 s t ∧ t.divmso = (Config.div0Wide op a s.divmsi).2 ∧
      Sequential { regs := [dst], acarry := true, divmso := true } s t := by
  obtain ⟨hseq, hputs, hdivmso⟩ := divEffect_spec op m dst a b s
  rw [divUOr0, if_pos hb] at hputs hdivmso
  exact ⟨_, guarded_true hp _, hputs, hdivmso, hseq⟩

/-! ### Executed predicate instructions and comparisons (43_predicate.md R270, 47_compare.md R350) -/

/-- An executed predicate instruction whose truth value decides `c`. -/
theorem guarded_pred (hp : s.pred p = true) (dstp : Pred) {b : Bool} {c : Prop} (hc : b = true ↔ c) :
    ∃ t, guarded p s (.next (predEffect dstp b s)) = .next t ∧ (t.pred dstp = true ↔ dstp = 0 ∨ c) ∧
      Sequential { preds := [dstp] } s t := by
  obtain ⟨hseq, hpred⟩ := predEffect_spec dstp b s
  refine ⟨_, guarded_true hp _, ?_, hseq⟩
  rw [hpred]
  by_cases hz : dstp = 0 <;> simp [hz, hc]

/-- An executed comparison whose truth value decides `c`. -/
theorem guarded_compare_iff (hp : s.pred p = true) (dst : Reg) {b : Bool} {c : Prop} (hc : b = true ↔ c) :
    ∃ t, guarded p s (.next (compareEffect dst b s)) = .next t ∧ (c → Received t dst 1) ∧
      (¬ c → Received t dst 0) ∧ Sequential { regs := [dst] } s t := by
  obtain ⟨t, hexec, hreg, hseq⟩ := guarded_compare hp dst b
  refine ⟨t, hexec, fun h => ?_, fun h => ?_, hseq⟩
  · simpa only [if_pos (hc.2 h)] using hreg
  · simpa only [if_neg fun hb => h (hc.1 hb)] using hreg

end executed

/-! ### Multiplies (42_arith_muldiv.md R240 to R247, R256 to R259) -/

/-- Settles O36: `guarded_mul` at each of the four forms. -/
theorem unsignedMultiplies : Obligations.UnsignedMultiplies := by
  unfold Obligations.UnsignedMultiplies
  intro p dst rs1 rs2 ul imm16 s hp imm i m b hi
  simp only [List.mem_cons, List.not_mem_nil, or_false, Prod.mk.injEq] at hi
  obtain ⟨rfl, rfl, rfl⟩ | ⟨rfl, rfl, rfl⟩ | ⟨rfl, rfl, rfl⟩ | ⟨rfl, rfl, rfl⟩ := hi
  all_goals exact guarded_mul hp _ dst _ _

/-- Settles O37: `guarded_mulS` at each of the four forms. -/
theorem signedMultiplies : Obligations.SignedMultiplies := by
  unfold Obligations.SignedMultiplies
  intro p dst rs1 rs2 ul imm16 s hp imm i m b hi
  simp only [List.mem_cons, List.not_mem_nil, or_false, Prod.mk.injEq] at hi
  obtain ⟨rfl, rfl, rfl⟩ | ⟨rfl, rfl, rfl⟩ | ⟨rfl, rfl, rfl⟩ | ⟨rfl, rfl, rfl⟩ := hi
  all_goals exact guarded_mulS hp _ dst _ _

/-- Settles O38: `guarded_mulF` at each of the four forms. -/
theorem fixedPointMultiplies : Obligations.FixedPointMultiplies := by
  unfold Obligations.FixedPointMultiplies
  intro p dst rs1 rs2 ul imm16 s hp imm i m b hi
  simp only [List.mem_cons, List.not_mem_nil, or_false, Prod.mk.injEq] at hi
  obtain ⟨rfl, rfl, rfl⟩ | ⟨rfl, rfl, rfl⟩ | ⟨rfl, rfl, rfl⟩ | ⟨rfl, rfl, rfl⟩ := hi
  all_goals exact guarded_mulF hp _ dst _ _

/-! ### Divides (42_arith_muldiv.md R248 to R255, R260 to R263) -/

/-- Settles O39: `guarded_div` at each of the four forms. -/
theorem unsignedDivides : Obligations.UnsignedDivides := by
  unfold Obligations.UnsignedDivides
  intro p dst rs1 rs2 ul imm16 s hp imm i m b hi hb dividend
  simp only [List.mem_cons, List.not_mem_nil, or_false, Prod.mk.injEq] at hi
  obtain ⟨rfl, rfl, rfl⟩ | ⟨rfl, rfl, rfl⟩ | ⟨rfl, rfl, rfl⟩ | ⟨rfl, rfl, rfl⟩ := hi
  all_goals exact guarded_div hp _ _ dst _ hb

/-- `divs` by a divisor that is not 0 (42_arith_muldiv.md R235). -/
theorem divSOr0_of_ne (op : Opcode) (a : Dword) {b : Dword} (hb : b ≠ 0) :
    divSOr0 op a b = BitVec.ofInt 32 ((a.toInt * 1).tdiv b.toInt) := by
  rw [divSOr0, if_neg hb, divS, mul_one]

/-- `divf` by a divisor that is not 0 (42_arith_muldiv.md R236). -/
theorem divFOr0_of_ne (op : Opcode) (a : Dword) {b : Dword} (hb : b ≠ 0) :
    divFOr0 op a b = BitVec.ofInt 32 ((a.toInt * 2 ^ 16).tdiv b.toInt) := by
  rw [divFOr0, if_neg hb, divF]

/-- Settles O40: the quotient each of the eight forms puts in `dst`. -/
theorem signedDivides : Obligations.SignedDivides := by
  unfold Obligations.SignedDivides
  intro p dst rs1 rs2 ul imm16 s hp imm i m b scale hi hb
  simp only [List.mem_cons, List.not_mem_nil, or_false, Prod.mk.injEq] at hi
  obtain ⟨rfl, rfl, rfl, rfl⟩ | ⟨rfl, rfl, rfl, rfl⟩ | ⟨rfl, rfl, rfl, rfl⟩ | ⟨rfl, rfl, rfl, rfl⟩ |
    ⟨rfl, rfl, rfl, rfl⟩ | ⟨rfl, rfl, rfl, rfl⟩ | ⟨rfl, rfl, rfl, rfl⟩ | ⟨rfl, rfl, rfl, rfl⟩ := hi
  · exact divSOr0_of_ne 0x23 (s.reg rs1) hb ▸ guarded_plain hp _ dst _
  · exact divSOr0_of_ne 0x33 (s.reg rs1) hb ▸ guarded_plain hp _ dst _
  · exact divSOr0_of_ne 0x63 (s.reg rs1) hb ▸ guarded_plain hp _ dst _
  · exact divSOr0_of_ne 0x73 (s.reg rs1) hb ▸ guarded_plain hp _ dst _
  · exact divFOr0_of_ne 0x29 (s.reg rs1) hb ▸ guarded_plain hp _ dst _
  · exact divFOr0_of_ne 0x39 (s.reg rs1) hb ▸ guarded_plain hp _ dst _
  · exact divFOr0_of_ne 0x69 (s.reg rs1) hb ▸ guarded_plain hp _ dst _
  · exact divFOr0_of_ne 0x79 (s.reg rs1) hb ▸ guarded_plain hp _ dst _

/-- The immediate field 0 is the operand 0, whatever its extension (40_arith_addsub_logic.md R151). -/
theorem immOperand_zero (ul signed : Bool) : immOperand 0 ul signed = 0 := by
  cases ul <;> cases signed <;> rfl

/-- A signed divide by 0 (42_arith_muldiv.md R237). -/
theorem divSOr0_of_eq (op : Opcode) (a : Dword) {b : Dword} (hb : b = 0) : divSOr0 op a b = Config.div0 op a :=
  if_pos hb

/-- A fixed-point divide by 0 (42_arith_muldiv.md R237). -/
theorem divFOr0_of_eq (op : Opcode) (a : Dword) {b : Dword} (hb : b = 0) : divFOr0 op a b = Config.div0 op a :=
  if_pos hb

/-- Settles O41: the open value each of the twelve forms puts in `dst`. -/
theorem dividesByZero : Obligations.DividesByZero := by
  unfold Obligations.DividesByZero
  intro p dst rs1 rs2 ul imm16 s hp
  refine ⟨fun hzero i m op => ⟨fun hi => ?_, fun hi => ?_⟩, ?_⟩
  · simp only [List.mem_cons, List.not_mem_nil, or_false, Prod.mk.injEq] at hi
    obtain ⟨rfl, rfl, rfl⟩ | ⟨rfl, rfl, rfl⟩ := hi
    all_goals exact guarded_div_zero hp _ _ dst _ hzero
  · simp only [List.mem_cons, List.not_mem_nil, or_false, Prod.mk.injEq] at hi
    obtain ⟨rfl, rfl, rfl⟩ | ⟨rfl, rfl, rfl⟩ | ⟨rfl, rfl, rfl⟩ | ⟨rfl, rfl, rfl⟩ := hi
    · exact divSOr0_of_eq 0x23 (s.reg rs1) hzero ▸ guarded_plain hp _ dst _
    · exact divSOr0_of_eq 0x63 (s.reg rs1) hzero ▸ guarded_plain hp _ dst _
    · exact divFOr0_of_eq 0x29 (s.reg rs1) hzero ▸ guarded_plain hp _ dst _
    · exact divFOr0_of_eq 0x69 (s.reg rs1) hzero ▸ guarded_plain hp _ dst _
  · rintro rfl i m op
    refine ⟨fun hi => ?_, fun hi => ?_⟩
    · simp only [List.mem_cons, List.not_mem_nil, or_false, Prod.mk.injEq] at hi
      obtain ⟨rfl, rfl, rfl⟩ | ⟨rfl, rfl, rfl⟩ := hi
      all_goals exact guarded_div_zero hp _ _ dst _ (immOperand_zero ul false)
    · simp only [List.mem_cons, List.not_mem_nil, or_false, Prod.mk.injEq] at hi
      obtain ⟨rfl, rfl, rfl⟩ | ⟨rfl, rfl, rfl⟩ | ⟨rfl, rfl, rfl⟩ | ⟨rfl, rfl, rfl⟩ := hi
      · exact divSOr0_of_eq 0x33 (s.reg rs1) (immOperand_zero ul true) ▸ guarded_plain hp _ dst _
      · exact divSOr0_of_eq 0x73 (s.reg rs1) (immOperand_zero ul true) ▸ guarded_plain hp _ dst _
      · exact divFOr0_of_eq 0x39 (s.reg rs1) (immOperand_zero ul true) ▸ guarded_plain hp _ dst _
      · exact divFOr0_of_eq 0x79 (s.reg rs1) (immOperand_zero ul true) ▸ guarded_plain hp _ dst _

/-! ### Conditions (43_predicate.md R271) -/

/-- `Eq` negated decides inequality. -/
theorem not_cmpEq_iff (a b : Dword) : (!cmpEq a b) = true ↔ a ≠ b := by
  rw [Bool.not_eq_true', ← Bool.not_eq_true, cmpEq_iff]

/-- `Lt` negated decides the complement of the order, for either value of `CMP_SIGNED`. -/
theorem not_cmpLt_iff (a b : Dword) :
    (!cmpLt a b) = true ↔ valOf Config.cmpSigned b ≤ valOf Config.cmpSigned a := by
  rw [Bool.not_eq_true', ← Bool.not_eq_true, cmpLt_iff, not_lt]

/-- `Gt` negated decides the complement of the order, for either value of `CMP_SIGNED`. -/
theorem not_cmpGt_iff (a b : Dword) :
    (!cmpGt a b) = true ↔ valOf Config.cmpSigned a ≤ valOf Config.cmpSigned b := by
  rw [Bool.not_eq_true', ← Bool.not_eq_true, cmpGt_iff, not_lt]

/-- Settles O42: the condition each of the ten instructions decides. -/
theorem predicateInstructions : Obligations.PredicateInstructions := by
  unfold Obligations.PredicateInstructions
  intro p dstp rs1 rs2 s hp val a b i c hi
  simp only [List.mem_cons, List.not_mem_nil, or_false, Prod.mk.injEq] at hi
  obtain ⟨rfl, rfl⟩ | ⟨rfl, rfl⟩ | ⟨rfl, rfl⟩ | ⟨rfl, rfl⟩ | ⟨rfl, rfl⟩ | ⟨rfl, rfl⟩ | ⟨rfl, rfl⟩ | ⟨rfl, rfl⟩ |
    ⟨rfl, rfl⟩ | ⟨rfl, rfl⟩ := hi
  · exact guarded_pred hp dstp Iff.rfl
  · exact guarded_pred hp dstp (Bool.not_eq_true' s.carry).to_iff
  · exact guarded_pred hp dstp (cmpEq_iff a b)
  · exact guarded_pred hp dstp (not_cmpEq_iff a b)
  · exact guarded_pred hp dstp (cmpLt_iff a b)
  · exact guarded_pred hp dstp (not_cmpLt_iff a b)
  · exact guarded_pred hp dstp (cmpGt_iff a b)
  · exact guarded_pred hp dstp (not_cmpGt_iff a b)
  · exact guarded_pred hp dstp (iff_true_intro rfl)
  · exact guarded_pred hp dstp (iff_false_intro nofun)

/-- The immediate of an ordering is sign-extended exactly when the orderings are signed (47_compare.md R351). -/
theorem cmpImm_ordered (imm16 : BitVec 16) (ul : Bool) :
    cmpImm imm16 ul true = if ul = false ∧ Config.cmpSigned = true then imm16.signExtend 32
      else if ul then imm16 ++ 0#16 else imm16.zeroExtend 32 := by
  cases ul <;> cases h : Config.cmpSigned <;> simp [cmpImm, immOperand, h]

/-- Settles O43: the condition each of the fourteen instructions decides. -/
theorem comparisonInstructions : Obligations.ComparisonInstructions := by
  unfold Obligations.ComparisonInstructions
  intro p dst rs1 rs2 ul imm16 s hp val imm ord a b i c hi
  have hord : ord = cmpImm imm16 ul true := (cmpImm_ordered imm16 ul).symm
  simp only [List.mem_cons, List.not_mem_nil, or_false, Prod.mk.injEq, hord] at hi
  obtain ⟨rfl, rfl⟩ | ⟨rfl, rfl⟩ | ⟨rfl, rfl⟩ | ⟨rfl, rfl⟩ | ⟨rfl, rfl⟩ | ⟨rfl, rfl⟩ | ⟨rfl, rfl⟩ | ⟨rfl, rfl⟩ |
    ⟨rfl, rfl⟩ | ⟨rfl, rfl⟩ | ⟨rfl, rfl⟩ | ⟨rfl, rfl⟩ | ⟨rfl, rfl⟩ | ⟨rfl, rfl⟩ := hi
  · exact guarded_compare_iff hp dst (cmpEq_iff a b)
  · exact guarded_compare_iff hp dst (not_cmpEq_iff a b)
  · exact guarded_compare_iff hp dst (cmpEq_iff a imm)
  · exact guarded_compare_iff hp dst (not_cmpEq_iff a imm)
  · exact guarded_compare_iff hp dst (cmpLt_iff a b)
  · exact guarded_compare_iff hp dst (not_cmpLt_iff a b)
  · exact guarded_compare_iff hp dst (cmpLt_iff a _)
  · exact guarded_compare_iff hp dst (not_cmpLt_iff a _)
  · exact guarded_compare_iff hp dst (cmpGt_iff a b)
  · exact guarded_compare_iff hp dst (not_cmpGt_iff a b)
  · exact guarded_compare_iff hp dst (cmpGt_iff a _)
  · exact guarded_compare_iff hp dst (not_cmpGt_iff a _)
  · exact guarded_compare_iff hp dst (iff_true_intro rfl)
  · exact guarded_compare_iff hp dst (iff_false_intro nofun)

end Sys2Proof.Machine

/-! Proofs about 44_memory_instr.md: loads, `pop`, stores and `push`, to main memory and to devices (20_memory.md R93). -/

namespace Sys2Proof.Machine

section executed
variable {p : Pred} {s r : State} {ws : List Addr}

/-! ### Executed memory instructions -/

/-- An executed load of `v`, after a read that only devices may have seen (44_memory_instr.md R291). -/
theorem guarded_load (hp : s.pred p = true) (hpresent : ∀ a ∈ ws, s.memoryAt a ≠ .absent) {b : Bool} (m : Modifier)
    (dst : Reg) (v : Dword) (hframe : Frame { devices := b } s r) (hpc : r.pc = s.pc) (hinstrs : r.instrs = s.instrs) :
    ∃ t, guarded p s (onMemory s ws (.next (loadEffect m dst v r))) = .next t ∧ PutsResult m dst v s t ∧
      t.deviceLog = r.deviceLog ∧ Sequential { regs := [dst], acarry := true, devices := b } s t := by
  obtain ⟨hseq, hputs, hlog⟩ := loadEffect_spec m dst v hframe hpc hinstrs
  exact ⟨_, guarded_onMemory_present hp hpresent _, hputs, hlog, hseq⟩

/-- An executed `pop` of `v`, after a read that only devices may have seen (44_memory_instr.md R292; log 7). -/
theorem guarded_pop (hp : s.pred p = true) (hpresent : ∀ a ∈ ws, s.memoryAt a ≠ .absent) {b : Bool} (m : Modifier)
    (dst rs1 : Reg) (v : Dword) (hframe : Frame { devices := b } s r) (hpc : r.pc = s.pc)
    (hinstrs : r.instrs = s.instrs) :
    ∃ t, guarded p s (onMemory s ws (.next (popEffect m dst rs1 v r))) = .next t ∧ t.deviceLog = r.deviceLog ∧
      Sequential { regs := [dst, rs1], acarry := true, devices := b } s t ∧ (m = .replace → t.acarry = s.acarry) ∧
      (m = .accumulate → t.acarry = decide (2 ^ 32 ≤ (s.reg dst).toNat + v.toNat)) ∧
      (dst ≠ rs1 ∨ dst = 0 → PutsResult m dst v s t ∧ Received t rs1 (s.reg rs1 + 1)) := by
  obtain ⟨hseq, hlog, hrest⟩ := popEffect_after m dst rs1 v hframe hpc hinstrs
  exact ⟨_, guarded_onMemory_present hp hpresent _, hlog, hseq, hrest⟩

/-- An executed store that leaves `r` (44_memory_instr.md R299 to R301). -/
theorem guarded_store (hp : s.pred p = true) (hpresent : ∀ a ∈ ws, s.memoryAt a ≠ .absent) {w : Writes}
    (hframe : Frame w s r) (hpc : r.pc = s.pc) (hinstrs : r.instrs = s.instrs) :
    ∃ t, guarded p s (onMemory s ws (.next r.advance)) = .next t ∧ t.mem = r.mem ∧ t.deviceLog = r.deviceLog ∧
      Sequential w s t :=
  ⟨_, guarded_onMemory_present hp hpresent _, rfl, rfl, .of_frame hframe hpc hinstrs⟩

/-- An executed `push` whose store leaves `r` (44_memory_instr.md R292, R302). -/
theorem guarded_push (hp : s.pred p = true) (hpresent : ∀ a ∈ ws, s.memoryAt a ≠ .absent) {words : List Addr}
    {b : Bool} (rs1 : Reg) (hframe : Frame { regs := [rs1], words := words, devices := b } s r) (hpc : r.pc = s.pc)
    (hinstrs : r.instrs = s.instrs) (hreg : r.reg rs1 = s.reg rs1) :
    ∃ t, guarded p s (onMemory s ws (.next (pushEffect rs1 r))) = .next t ∧ t.mem = r.mem ∧
      t.deviceLog = r.deviceLog ∧ Received t rs1 (s.reg rs1 - 1) ∧
      Sequential { regs := [rs1], words := words, devices := b } s t := by
  obtain ⟨hseq, hmem, hlog, hbase⟩ := pushEffect_spec rs1 hframe hpc hinstrs hreg
  exact ⟨_, guarded_onMemory_present hp hpresent _, hmem, hlog, hbase, hseq⟩

end executed

/-! ### Main memory (20_memory.md R84 to R87) -/

/-- The words of a dword access, one by one. -/
theorem forall_mem_dwordAddrs {a : Addr} {P : Addr → Prop} :
    (∀ c ∈ dwordAddrs a, P c) ↔ P (clearBit0 a) ∧ P (clearBit0 a + 1) := by simp [dwordAddrs]

theorem memoryAt_ne_absent_of_ram {s : State} {a : Addr} (h : s.memoryAt a = .ram) : s.memoryAt a ≠ .absent := by
  simp [h]

theorem memoryAt_ne_absent_of_device {s : State} {a : Addr} {d : DeviceId} (h : s.memoryAt a = .device d) :
    s.memoryAt a ≠ .absent := by
  simp [h]

/-- The words of a dword in main memory, seen as an access. -/
theorem dword_ram {s : State} {a : Addr} (hlow : s.memoryAt (clearBit0 a) = .ram)
    (hhigh : s.memoryAt (clearBit0 a + 1) = .ram) :
    (∀ c ∈ dwordAddrs a, s.memoryAt c ≠ .absent) ∧ ∀ c ∈ dwordAddrs a, s.deviceAt c = none :=
  ⟨forall_mem_dwordAddrs.2 ⟨memoryAt_ne_absent_of_ram hlow, memoryAt_ne_absent_of_ram hhigh⟩,
    forall_mem_dwordAddrs.2 ⟨State.deviceAt_of_ram hlow, State.deviceAt_of_ram hhigh⟩⟩

section mainMemory
variable {p : Pred} {s : State} {a : Addr}

/-- An executed 32-bit load from main memory (44_memory_instr.md R291). -/
theorem guarded_loadDword_ram (hp : s.pred p = true) (hlow : s.memoryAt (clearBit0 a) = .ram)
    (hhigh : s.memoryAt (clearBit0 a + 1) = .ram) (m : Modifier) (dst : Reg) :
    ∃ t, guarded p s (onMemory s (dwordAddrs a) (.next (loadEffect m dst (s.loadDword a) (s.afterDword a)))) = .next t ∧
      PutsResult m dst (readWord s.mem (clearBit0 a + 1) ++ readWord s.mem (clearBit0 a)) s t ∧
      Sequential { regs := [dst], acarry := true } s t := by
  obtain ⟨hpresent, hnone⟩ := dword_ram hlow hhigh
  rw [State.loadDword_memory hnone, State.afterDword_memory hnone, readDword_eq]
  obtain ⟨t, hexec, hputs, -, hseq⟩ := guarded_load hp hpresent m dst _ (Frame.refl _ s) rfl rfl
  exact ⟨t, hexec, hputs, hseq⟩

/-- An executed 16-bit load of `v` from main memory, `v` made of the word read by `extend` (44_memory_instr.md R296,
R297). -/
theorem guarded_loadWord_ram (hp : s.pred p = true) (hram : s.memoryAt a = .ram) (m : Modifier) (dst : Reg)
    (extend : Word → Dword) :
    ∃ t, guarded p s (onMemory s [a] (.next (loadEffect m dst (extend (s.loadWord a)) (s.afterWord a)))) = .next t ∧
      PutsResult m dst (extend (readWord s.mem a)) s t ∧ Sequential { regs := [dst], acarry := true } s t := by
  have hnone : s.deviceAt a = none := State.deviceAt_of_ram hram
  rw [State.loadWord_memory hnone, State.afterWord_memory hnone]
  obtain ⟨t, hexec, hputs, -, hseq⟩ :=
    guarded_load (ws := [a]) hp (by simp [hram]) m dst (extend (readWord s.mem a)) (Frame.refl _ s) rfl rfl
  exact ⟨t, hexec, hputs, hseq⟩

/-- An executed 16-bit store to main memory (44_memory_instr.md R300, R301). -/
theorem guarded_storeWord_ram (hp : s.pred p = true) (hwf : s.mem.wf) (hram : s.memoryAt a = .ram) (v : Word) :
    ∃ t, guarded p s (onMemory s [a] (.next (s.storeWord a v).advance)) = .next t ∧
      Sequential { words := [a] } s t ∧ readWord t.mem a = v := by
  have hnone : s.deviceAt a = none := State.deviceAt_of_ram hram
  obtain ⟨t, hexec, hmem, -, hseq⟩ := guarded_store (ws := [a]) (w := { words := [a] }) hp (by simp [hram])
    (Frame.storeWord _ s a v (by simp) (by simp [hnone])) (by simp) (by simp)
  refine ⟨t, hexec, hseq, ?_⟩
  rw [hmem, State.storeWord_memory hnone, State.setMem_mem, readWord_writeWord_same hwf]

/-- An executed 32-bit store to main memory (44_memory_instr.md R299). -/
theorem guarded_storeDword_ram (hp : s.pred p = true) (hlow : s.memoryAt (clearBit0 a) = .ram)
    (hhigh : s.memoryAt (clearBit0 a + 1) = .ram) (v : Dword) :
    ∃ t, guarded p s (onMemory s (dwordAddrs a) (.next (s.storeDword a v).advance)) = .next t ∧
      Sequential { words := dwordAddrs a } s t ∧ t.mem = writeDword s.mem a v := by
  obtain ⟨hpresent, hnone⟩ := dword_ram hlow hhigh
  obtain ⟨t, hexec, hmem, -, hseq⟩ := guarded_store (w := { words := dwordAddrs a }) hp hpresent
    (Frame.storeDword _ s a v (fun _ hc _ => hc) (fun c hc => by simp [hnone c hc])) (by simp) (by simp)
  refine ⟨t, hexec, hseq, ?_⟩
  rw [hmem, State.storeDword_memory hnone, State.setMem_mem]

/-- `push` to main memory (44_memory_instr.md R292, R302). -/
theorem exec_push_ram (hp : s.pred p = true) (dst rs1 : Reg) (imm17 : BitVec 17)
    (ha : a = effectiveAddr (s.reg rs1) imm17) (hlow : s.memoryAt (clearBit0 a) = .ram)
    (hhigh : s.memoryAt (clearBit0 a + 1) = .ram) :
    ∃ t, exec (.push p dst rs1 imm17) s = .next t ∧ Sequential { regs := [rs1], words := dwordAddrs a } s t ∧
      Received t rs1 (s.reg rs1 - 1) ∧ t.mem = writeDword s.mem a (s.reg dst) := by
  obtain ⟨hpresent, hnone⟩ := dword_ram hlow hhigh
  obtain ⟨t, hexec, hmem, -, hbase, hseq⟩ := guarded_push (words := dwordAddrs a) (b := false) hp hpresent rs1
    (Frame.storeDword _ s a (s.reg dst) (fun _ hc _ => hc) (fun c hc => by simp [hnone c hc])) (by simp) (by simp)
    (by simp)
  subst ha
  refine ⟨t, hexec, hseq, hbase, ?_⟩
  rw [hmem, State.storeDword_memory hnone, State.setMem_mem]

end mainMemory

/-- Settles O45: each load reads main memory at the words it accesses, and no device sees it. -/
theorem loadInstructions : Obligations.LoadInstructions := by
  unfold Obligations.LoadInstructions
  intro p dst rs1 imm17 s hp ea low dword i m v words hi hram
  have hlow : low = clearBit0 ea := (clearBit0_eq_ofNat ea).symm
  have hdword : dword = readWord s.mem (clearBit0 ea + 1) ++ readWord s.mem (clearBit0 ea) := by rw [← hlow]
  simp only [List.mem_cons, List.not_mem_nil, or_false, Prod.mk.injEq] at hi
  obtain ⟨rfl, rfl, rfl, rfl⟩ | ⟨rfl, rfl, rfl, rfl⟩ | ⟨rfl, rfl, rfl, rfl⟩ | ⟨rfl, rfl, rfl, rfl⟩ |
    ⟨rfl, rfl, rfl, rfl⟩ | ⟨rfl, rfl, rfl, rfl⟩ := hi
  iterate 2
    simp only [hlow, List.forall_mem_cons] at hram
    rw [hdword]
    exact guarded_loadDword_ram hp hram.1 hram.2.1 _ dst
  iterate 2 exact guarded_loadWord_ram hp (hram ea (by simp)) _ dst (BitVec.zeroExtend 32)
  iterate 2 exact guarded_loadWord_ram hp (hram ea (by simp)) _ dst (BitVec.signExtend 32)

/-- Settles O46: `guarded_pop` after a read of main memory. -/
theorem popInstructions : Obligations.PopInstructions := by
  unfold Obligations.PopInstructions
  intro p dst rs1 imm17 s hp ea low dword hramLow hramHigh i m hi
  have hlow : low = clearBit0 ea := (clearBit0_eq_ofNat ea).symm
  rw [hlow] at hramLow hramHigh
  obtain ⟨hpresent, hnone⟩ := dword_ram hramLow hramHigh
  have hdword : s.loadDword ea = dword := by
    rw [State.loadDword_memory hnone, readDword_eq, ← hlow]
  have hframe : Frame { } s (s.afterDword ea) := Frame.afterDword _ s ea fun c hc => by simp [hnone c hc]
  have hpop (m : Modifier) := guarded_pop hp hpresent m dst rs1 (s.loadDword ea) hframe (by simp) (by simp)
  simp only [List.mem_cons, List.not_mem_nil, or_false, Prod.mk.injEq] at hi
  obtain ⟨rfl, rfl⟩ | ⟨rfl, rfl⟩ := hi
  · obtain ⟨t, hexec, -, hseq, hreplace, haccumulate, hputs⟩ := hpop .replace
    rw [hdword] at haccumulate hputs
    exact ⟨t, hexec, hseq, hreplace, haccumulate, hputs⟩
  · obtain ⟨t, hexec, -, hseq, hreplace, haccumulate, hputs⟩ := hpop .accumulate
    rw [hdword] at haccumulate hputs
    exact ⟨t, hexec, hseq, hreplace, haccumulate, hputs⟩

/-- Settles O47: `guarded_storeDword_ram` and `guarded_storeWord_ram` at the effective address. -/
theorem storeInstructions : Obligations.StoreInstructions := by
  unfold Obligations.StoreInstructions
  intro p dst rs1 imm17 s hp hwf ea low d
  have hlow : low = clearBit0 ea := (clearBit0_eq_ofNat ea).symm
  rw [hlow]
  refine ⟨fun hramLow hramHigh => ?_, fun hram => ⟨?_, ?_⟩⟩
  · obtain ⟨t, hexec, hseq, hmem⟩ := guarded_storeDword_ram hp hramLow hramHigh d
    refine ⟨t, hexec, hseq, ?_, ?_⟩
    · rw [hmem, readWord_writeDword_low hwf]
    · rw [hmem, readWord_writeDword_high hwf]
  · exact guarded_storeWord_ram hp hwf hram (d.extractLsb' 0 16)
  · exact guarded_storeWord_ram hp hwf hram (signedNarrow d)

/-- Settles O48: `exec_push_ram`, read back. -/
theorem pushInstruction : Obligations.PushInstruction := by
  unfold Obligations.PushInstruction
  intro p dst rs1 imm17 s hp hwf ea low hramLow hramHigh
  have hlow : low = clearBit0 ea := (clearBit0_eq_ofNat ea).symm
  rw [hlow] at hramLow hramHigh ⊢
  obtain ⟨t, hexec, hseq, hbase, hmem⟩ := exec_push_ram hp dst rs1 imm17 rfl hramLow hramHigh
  refine ⟨t, hexec, hseq, hbase, ?_, ?_⟩
  · rw [hmem, readWord_writeDword_low hwf]
  · rw [hmem, readWord_writeDword_high hwf]

/-! ### Pushes through one base (44_memory_instr.md R292; D17) -/

/-- A dword written again with the value it has changes no word. -/
theorem readWord_writeDword_again {m : Memory} (hm : m.wf) {a b : Addr} (hab : clearBit0 b = clearBit0 a) (v : Dword)
    (c : Addr) : readWord (writeDword (writeDword m a v) b v) c = readWord (writeDword m a v) c := by
  have hm' := writeDword_wf hm a v
  by_cases hlow : c = clearBit0 a
  · rw [hlow, readWord_writeDword_low hm, ← hab, readWord_writeDword_low hm']
  · by_cases hhigh : c = clearBit0 a + 1
    · rw [hhigh, readWord_writeDword_high hm, ← hab, readWord_writeDword_high hm']
    · exact readWord_writeDword_ne _ v (hab ▸ hlow) (hab ▸ hhigh)

/-- One `push` with offset 0 through a base other than the stored register, in main memory. -/
theorem push_step {p : Pred} {r base : Reg} {s t : State} (hp : s.pred p = true) (hbase : base ≠ 0) (hne : r ≠ base)
    (hlow : s.memoryAt (clearBit0 (s.reg base)) = .ram) (hhigh : s.memoryAt (clearBit0 (s.reg base) + 1) = .ram)
    (h : exec (.push p r base 0) s = .next t) :
    t.pred p = true ∧ t.reg base = s.reg base - 1 ∧ t.reg r = s.reg r ∧ t.memoryMap = s.memoryMap ∧
      t.mem = writeDword s.mem (s.reg base) (s.reg r) := by
  have haddr : s.reg base = effectiveAddr (s.reg base) 0 := by simp [effectiveAddr]
  obtain ⟨t', ht, hseq, hreg, hmem⟩ := exec_push_ram hp r base 0 haddr hlow hhigh
  obtain rfl : t' = t := by
    have heq := ht.symm.trans h
    cases heq
    rfl
  refine ⟨(hseq.frame.preds p (by simp)).trans hp, ?_, hseq.frame.regs r (by simpa using hne), hseq.frame.memoryMap,
    hmem⟩
  rw [hreg, if_neg hbase]

/-- A dword outside the one written is unchanged (20_memory.md R87). -/
theorem readDword_writeDword_ne (m : Memory) {a b : Addr} (v : Dword) (h : b.toNat / 2 ≠ a.toNat / 2) :
    readDword (writeDword m a v) b = readDword m b := by
  have hlow : (clearBit0 b).toNat / 2 ≠ a.toNat / 2 := by
    rw [clearBit0_toNat]
    omega
  have hhigh : (clearBit0 b + 1).toNat / 2 ≠ a.toNat / 2 := by
    rw [clearBit0_succ_toNat]
    omega
  obtain ⟨h00, h01⟩ := ne_words_of_div_ne hlow
  obtain ⟨h10, h11⟩ := ne_words_of_div_ne hhigh
  rw [readDword_eq, readDword_eq, readWord_writeDword_ne m v h00 h01, readWord_writeDword_ne m v h10 h11]

/-- The dword below an even address, modulo 2^32, from either of its words. -/
theorem clearBit0_below {a : Addr} (h : a.getLsbD 0 = false) :
    clearBit0 (a - 1) = a - 2 ∧ clearBit0 (a - 2) = a - 2 ∧ a.toNat / 2 ≠ (a - 1).toNat / 2 := by
  have heven : a.toNat % 2 = 0 := by
    rw [← clearBit0_of_even h, clearBit0_toNat]
    omega
  have hone : (a - 1).toNat = (2 ^ 32 - 1 + a.toNat) % 2 ^ 32 := BitVec.toNat_sub ..
  have htwo : (a - 2).toNat = (2 ^ 32 - 2 + a.toNat) % 2 ^ 32 := BitVec.toNat_sub ..
  refine ⟨BitVec.eq_of_toNat_eq ?_, BitVec.eq_of_toNat_eq ?_, ?_⟩
  · rw [clearBit0_toNat]
    omega
  · rw [clearBit0_toNat]
    omega
  · omega

/-- Settles O49: the first `push` writes the dword at the base, the second and the third the one below it. -/
theorem pushesOverlap : Obligations.PushesOverlap := by
  unfold Obligations.PushesOverlap
  intro p r base s t u v hp hwf hbase hne heven hram ht hu hv
  simp only [List.forall_mem_cons] at hram
  obtain ⟨hram2, hram1, hram0, hramSucc, -⟩ := hram
  have hself : clearBit0 (s.reg base) = s.reg base := clearBit0_of_even heven
  obtain ⟨hodd, hbelow, hother⟩ := clearBit0_below heven
  have hsucc : s.reg base - 2 + 1 = s.reg base - 1 := by bv_omega
  obtain ⟨hpt, hbt, hrt, hmapt, hmemt⟩ := push_step hp hbase hne (by rwa [hself]) (by rwa [hself]) ht
  obtain ⟨hpu, hbu, hru, hmapu, hmemu⟩ := push_step hpt hbase hne
    (by rwa [State.memoryAt_congr hmapt, hbt, hodd]) (by rwa [State.memoryAt_congr hmapt, hbt, hodd, hsucc]) hu
  have hbu' : u.reg base = s.reg base - 2 := by
    rw [hbu, hbt]
    bv_omega
  have hmap : u.memoryMap = s.memoryMap := hmapu.trans hmapt
  obtain ⟨-, -, -, -, hmemv⟩ := push_step hpu hbase hne
    (by rwa [State.memoryAt_congr hmap, hbu', hbelow]) (by rwa [State.memoryAt_congr hmap, hbu', hbelow, hsucc]) hv
  have hwft : t.mem.wf := hmemt ▸ writeDword_wf hwf _ _
  rw [hbt, hrt] at hmemu
  rw [hbu', hru, hrt, hmemu] at hmemv
  refine ⟨hbu', ?_, ?_, fun a => ?_⟩
  · rw [hmemu, readDword_writeDword_ne _ _ hother, hmemt, readDword_writeDword_same hwf]
  · rw [hmemu, readDword_congr _ (hbelow.trans hodd.symm), readDword_writeDword_same hwft]
  · rw [hmemv, hmemu, readWord_writeDword_again hwft (hbelow.trans hodd.symm)]

end Sys2Proof.Machine

/-! Proofs about 20_memory.md R93 and 10_state.md R57, R58: the accesses that reach a device (log 15, 16, 48). -/

namespace Sys2Proof.Machine

/-! ### Which words answer alike -/

/-- Where something answers and no device does, main memory does. -/
theorem ram_of_deviceAt_none {s : State} {a : Addr} (hpresent : s.memoryAt a ≠ .absent) (h : s.deviceAt a = none) :
    s.memoryAt a = .ram := by
  cases hk : s.memoryAt a with
  | ram => rfl
  | absent => exact absurd hk hpresent
  | device d => simp [State.deviceAt_eq_some.2 hk] at h

/-- Where something answers at two words, they answer alike when they reach the same device, or both none. -/
theorem deviceAt_ne_of_memoryAt_ne {s : State} {a b : Addr} (ha : s.memoryAt a ≠ .absent) (hb : s.memoryAt b ≠ .absent)
    (h : s.memoryAt a ≠ s.memoryAt b) : s.deviceAt a ≠ s.deviceAt b := by
  intro heq
  cases hd : s.deviceAt a with
  | none =>
    rw [hd] at heq
    exact h ((ram_of_deviceAt_none ha hd).trans (ram_of_deviceAt_none hb heq.symm).symm)
  | some d =>
    rw [hd] at heq
    exact h ((State.deviceAt_eq_some.1 hd).trans (State.deviceAt_eq_some.1 heq.symm).symm)

/-- A dword one device answers for, seen as an access. -/
theorem dword_device {s : State} {a : Addr} {d : DeviceId} (hlow : s.memoryAt (clearBit0 a) = .device d)
    (hhigh : s.memoryAt (clearBit0 a + 1) = .device d) :
    (∀ c ∈ dwordAddrs a, s.memoryAt c ≠ .absent) ∧ ∀ c ∈ dwordAddrs a, s.deviceAt c = some d :=
  ⟨forall_mem_dwordAddrs.2 ⟨memoryAt_ne_absent_of_device hlow, memoryAt_ne_absent_of_device hhigh⟩,
    forall_mem_dwordAddrs.2 ⟨State.deviceAt_eq_some.2 hlow, State.deviceAt_eq_some.2 hhigh⟩⟩

/-! ### Reads (20_memory.md R84, R85, R92) -/

/-- What a 16-bit read at `b` returns where devices have seen `log`, and what they have seen after it. -/
def wordRead (s : State) (b : Addr) (log : List DeviceEvent) : Word × List DeviceEvent :=
  match s.memoryAt b with
  | .device e =>
    ((Config.deviceAnswer (⟨e, s.draws, .readWord b⟩ :: log)).extractLsb' 0 16, ⟨e, s.draws, .readWord b⟩ :: log)
  | .ram => (readWord s.mem b, log)
  | .absent => (0, log)

/-- `wordRead` is the 16-bit read, in every state that differs from `s` in what devices have seen alone. -/
theorem wordRead_eq {s t : State} {b : Addr} (hmap : t.memoryMap = s.memoryMap) (hmem : t.mem = s.mem)
    (hdraws : t.draws = s.draws) (hpresent : s.memoryAt b ≠ .absent) :
    wordRead s b t.deviceLog = (t.loadWord b, (t.afterWord b).deviceLog) := by
  have hkind := State.memoryAt_congr hmap b
  unfold wordRead
  cases hk : s.memoryAt b with
  | absent => exact absurd hk hpresent
  | ram =>
    have hnone : t.deviceAt b = none := State.deviceAt_of_ram (hkind.trans hk)
    rw [State.loadWord_memory hnone, State.afterWord_memory hnone, hmem]
  | device e =>
    have hsome : t.deviceAt b = some e := State.deviceAt_eq_some.2 (hkind.trans hk)
    rw [State.loadWord_device hsome, State.afterWord_device hsome, State.answer, State.logAccess_deviceLog, hdraws]

section reads
variable {p : Pred} {s : State} {a : Addr} {d : DeviceId}

/-- A 32-bit read of one device (20_memory.md R93). -/
theorem loadDword_one_device (hlow : s.memoryAt (clearBit0 a) = .device d)
    (hhigh : s.memoryAt (clearBit0 a + 1) = .device d) :
    (∀ c ∈ dwordAddrs a, s.memoryAt c ≠ .absent) ∧
      s.loadDword a = Config.deviceAnswer (⟨d, s.draws, .readDword (clearBit0 a)⟩ :: s.deviceLog) ∧
      (s.afterDword a).deviceLog = ⟨d, s.draws, .readDword (clearBit0 a)⟩ :: s.deviceLog := by
  obtain ⟨hpresent, hsome⟩ := dword_device hlow hhigh
  exact ⟨hpresent, State.loadDword_device hsome, by rw [State.afterDword_device hsome, State.logAccess_deviceLog]⟩

/-- A 32-bit read of two words that do not answer alike is two 16-bit reads, the even address first (20_memory.md
R92). -/
theorem loadDword_two_words (hne : s.memoryAt (clearBit0 a) ≠ s.memoryAt (clearBit0 a + 1))
    (hlow : s.memoryAt (clearBit0 a) ≠ .absent) (hhigh : s.memoryAt (clearBit0 a + 1) ≠ .absent) :
    (∀ c ∈ dwordAddrs a, s.memoryAt c ≠ .absent) ∧
      s.loadDword a = (wordRead s (clearBit0 a + 1) (wordRead s (clearBit0 a) s.deviceLog).2).1 ++
        (wordRead s (clearBit0 a) s.deviceLog).1 ∧
      (s.afterDword a).deviceLog = (wordRead s (clearBit0 a + 1) (wordRead s (clearBit0 a) s.deviceLog).2).2 := by
  have hsplit := deviceAt_ne_of_memoryAt_ne hlow hhigh hne
  have heven := wordRead_eq (s := s) rfl rfl rfl hlow
  have hodd := wordRead_eq (s := s) (t := s.afterWord (clearBit0 a)) (by simp) (by simp) (by simp) hhigh
  rw [heven, hodd, State.loadDword_split hsplit, State.afterDword_split hsplit]
  exact ⟨forall_mem_dwordAddrs.2 ⟨hlow, hhigh⟩, rfl, rfl⟩

/-- An executed 16-bit load from a device (44_memory_instr.md R296, R297). -/
theorem guarded_loadWord_device (hp : s.pred p = true) (hdevice : s.memoryAt a = .device d) (m : Modifier) (dst : Reg)
    (extend : Word → Dword) :
    ∃ t, guarded p s (onMemory s [a] (.next (loadEffect m dst (extend (s.loadWord a)) (s.afterWord a)))) = .next t ∧
      PutsResult m dst
        (extend ((Config.deviceAnswer (⟨d, s.draws, .readWord a⟩ :: s.deviceLog)).extractLsb' 0 16)) s t ∧
      t.deviceLog = ⟨d, s.draws, .readWord a⟩ :: s.deviceLog ∧
      Sequential { regs := [dst], acarry := true, devices := true } s t := by
  have hsome : s.deviceAt a = some d := State.deviceAt_eq_some.2 hdevice
  rw [State.loadWord_device hsome]
  obtain ⟨t, hexec, hputs, hlog, hseq⟩ := guarded_load (ws := [a]) hp (by simp [hdevice]) m dst
    (extend ((s.answer d (.readWord a)).extractLsb' 0 16)) (Frame.afterWord { devices := true } s a fun _ => rfl)
    (by simp) (by simp)
  rw [State.afterWord_device hsome, State.logAccess_deviceLog] at hlog
  exact ⟨t, hexec, hputs, hlog, hseq⟩

/-- `srr` of a register a device answers for (10_state.md R57, 48_misc_system.md R371). -/
theorem exec_srr_device (hp : s.pred p = true) (dst : Reg) {r : SrAddr} (h : s.srDevice r = some d) :
    ∃ t, exec (.srr p dst r) s = .next t ∧
      Received t dst (Config.deviceAnswer (⟨d, s.draws, .readSr r⟩ :: s.deviceLog)) ∧
      t.deviceLog = ⟨d, s.draws, .readSr r⟩ :: s.deviceLog ∧ Sequential { regs := [dst], devices := true } s t := by
  have hexec : exec (.srr p dst r) s = guarded p s (.next ((s.afterSr r).setReg dst (s.loadSr r)).advance) := rfl
  rw [hexec, guarded_true hp, State.afterSr_device h, State.loadSr_device h, retired_next]
  have hframe : Frame { regs := [dst], devices := true } s
      ((s.logAccess d (.readSr r)).setReg dst (s.answer d (.readSr r))) :=
    (Frame.logAccess _ s d (.readSr r) rfl).trans (Frame.setReg _ _ dst _ (by simp))
  exact ⟨_, rfl, State.setReg_reg_same _ dst _, rfl, .of_frame hframe (by simp) (by simp)⟩

end reads

/-- A register beyond base AA32 is a device's where `EXTRA_SR` says so (10_state.md R57). -/
theorem srDevice_of_lookup {s : State} {a : SrAddr} {d : DeviceId} (ha : 12 ≤ a.toNat)
    (h : s.extraSr.lookup a = some d) : s.srDevice a = some d :=
  (if_neg (Nat.not_lt.2 ha)).trans h

/-- Settles O50: the word read, the dword read in one access or in two, and the status register read. -/
theorem deviceReads : Obligations.DeviceReads := by
  unfold Obligations.DeviceReads
  intro p dst rs1 imm17 a d s hp ea low seen word wordAt even odd
  have hlow : low = clearBit0 ea := (clearBit0_eq_ofNat ea).symm
  refine ⟨fun hdevice i m v hi => ?_, fun v log hread => ?_, fun ha hlookup => ?_⟩
  · simp only [List.mem_cons, List.not_mem_nil, or_false, Prod.mk.injEq] at hi
    obtain ⟨rfl, rfl, rfl⟩ | ⟨rfl, rfl, rfl⟩ | ⟨rfl, rfl, rfl⟩ | ⟨rfl, rfl, rfl⟩ := hi
    iterate 2 exact guarded_loadWord_device hp hdevice _ dst (BitVec.zeroExtend 32)
    iterate 2 exact guarded_loadWord_device hp hdevice _ dst (BitVec.signExtend 32)
  · have hanswer : (∀ c ∈ dwordAddrs ea, s.memoryAt c ≠ .absent) ∧ s.loadDword ea = v ∧
        (s.afterDword ea).deviceLog = log := by
      have hwordAt : wordAt = wordRead s := rfl
      rcases hread with ⟨hd0, hd1, rfl, rfl⟩ | ⟨hne, h0, h1, rfl, rfl⟩
      · rw [hlow] at hd0 hd1
        simpa only [seen, hlow] using loadDword_one_device hd0 hd1
      · rw [hlow] at hne h0 h1
        simpa only [odd, even, hwordAt, hlow] using loadDword_two_words hne h0 h1
    obtain ⟨hpresent, rfl, rfl⟩ := hanswer
    have hframe : Frame { devices := true } s (s.afterDword ea) := Frame.afterDword _ s ea fun _ _ _ => rfl
    refine ⟨fun i m hi => ?_, fun i m hi => ?_⟩
    · simp only [List.mem_cons, List.not_mem_nil, or_false, Prod.mk.injEq] at hi
      obtain ⟨rfl, rfl⟩ | ⟨rfl, rfl⟩ := hi
      all_goals exact guarded_load hp hpresent _ dst _ hframe (by simp) (by simp)
    · simp only [List.mem_cons, List.not_mem_nil, or_false, Prod.mk.injEq] at hi
      obtain ⟨rfl, rfl⟩ | ⟨rfl, rfl⟩ := hi
      all_goals exact guarded_pop hp hpresent _ dst rs1 _ hframe (by simp) (by simp)
  · exact exec_srr_device hp dst (srDevice_of_lookup ha hlookup)

/-! ### Writes (20_memory.md R86, R87, R92) -/

/-- What devices have seen after a 16-bit write of `w` at `b`, where they had seen `log`. -/
def wordWrite (s : State) (b : Addr) (w : Word) (log : List DeviceEvent) : List DeviceEvent :=
  match s.memoryAt b with
  | .device e => ⟨e, s.draws, .writeWord b w⟩ :: log
  | .ram => log
  | .absent => log

section writes
variable {p : Pred} {s t : State} {a b c : Addr} {d : DeviceId}

/-- `wordWrite` is what a 16-bit write tells devices, in every state with the map and the step of `s`. -/
theorem storeWord_deviceLog (hmap : t.memoryMap = s.memoryMap) (hdraws : t.draws = s.draws)
    (hpresent : s.memoryAt b ≠ .absent) (w : Word) : (t.storeWord b w).deviceLog = wordWrite s b w t.deviceLog := by
  have hkind := State.memoryAt_congr hmap b
  unfold wordWrite
  cases hk : s.memoryAt b with
  | absent => exact absurd hk hpresent
  | ram => rw [State.storeWord_memory (State.deviceAt_of_ram (hkind.trans hk)), State.setMem_deviceLog]
  | device e =>
    rw [State.storeWord_device (State.deviceAt_eq_some.2 (hkind.trans hk)), State.logAccess_deviceLog, hdraws]

/-- A 16-bit write to main memory is read back there. -/
theorem readWord_storeWord_same (hwf : t.mem.wf) (hram : t.memoryAt b = .ram) (w : Word) :
    readWord (t.storeWord b w).mem b = w := by
  rw [State.storeWord_memory (State.deviceAt_of_ram hram), State.setMem_mem, readWord_writeWord_same hwf]

/-- A 16-bit write leaves every other word alone, also when a device sees it. -/
theorem readWord_storeWord_ne (hne : c ≠ b) (w : Word) : readWord (t.storeWord b w).mem c = readWord t.mem c := by
  cases hd : t.deviceAt b with
  | none => rw [State.storeWord_memory hd, State.setMem_mem, readWord_writeWord_ne _ _ hne]
  | some d => rw [State.storeWord_device hd, State.logAccess_mem]

/-- A 32-bit write to one device (20_memory.md R93). -/
theorem storeDword_one_device (hlow : s.memoryAt (clearBit0 a) = .device d)
    (hhigh : s.memoryAt (clearBit0 a + 1) = .device d) (v : Dword) :
    (∀ c ∈ dwordAddrs a, s.memoryAt c ≠ .absent) ∧
      (s.storeDword a v).deviceLog = ⟨d, s.draws, .writeDword (clearBit0 a) v⟩ :: s.deviceLog := by
  obtain ⟨hpresent, hsome⟩ := dword_device hlow hhigh
  exact ⟨hpresent, by rw [State.storeDword_device hsome, State.logAccess_deviceLog]⟩

/-- A 32-bit write of two words that do not answer alike is two 16-bit writes, the even address first (20_memory.md
R92); a word of main memory among them holds its half. -/
theorem storeDword_two_words (hwf : s.mem.wf) (hne : s.memoryAt (clearBit0 a) ≠ s.memoryAt (clearBit0 a + 1))
    (hlow : s.memoryAt (clearBit0 a) ≠ .absent) (hhigh : s.memoryAt (clearBit0 a + 1) ≠ .absent) (v : Dword) :
    (∀ c ∈ dwordAddrs a, s.memoryAt c ≠ .absent) ∧
      (s.storeDword a v).deviceLog = wordWrite s (clearBit0 a + 1) (v.extractLsb' 16 16)
        (wordWrite s (clearBit0 a) (v.extractLsb' 0 16) s.deviceLog) ∧
      (s.memoryAt (clearBit0 a) = .ram → readWord (s.storeDword a v).mem (clearBit0 a) = v.extractLsb' 0 16) ∧
      (s.memoryAt (clearBit0 a + 1) = .ram →
        readWord (s.storeDword a v).mem (clearBit0 a + 1) = v.extractLsb' 16 16) := by
  have hmap : (s.storeWord (clearBit0 a) (v.extractLsb' 0 16)).memoryMap = s.memoryMap := by simp
  rw [State.storeDword_split (deviceAt_ne_of_memoryAt_ne hlow hhigh hne)]
  refine ⟨forall_mem_dwordAddrs.2 ⟨hlow, hhigh⟩, ?_, fun hram => ?_, fun hram => ?_⟩
  · rw [storeWord_deviceLog hmap (by simp) hhigh, storeWord_deviceLog rfl rfl hlow]
  · rw [readWord_storeWord_ne (clearBit0_succ_ne a).symm, readWord_storeWord_same hwf hram]
  · exact readWord_storeWord_same (State.storeWord_wf hwf _) ((State.memoryAt_congr hmap _).trans hram) _

/-- An executed 16-bit store to a device (44_memory_instr.md R300, R301). -/
theorem guarded_storeWord_device (hp : s.pred p = true) (hdevice : s.memoryAt a = .device d) (w : Word) :
    ∃ t, guarded p s (onMemory s [a] (.next (s.storeWord a w).advance)) = .next t ∧
      t.deviceLog = ⟨d, s.draws, .writeWord a w⟩ :: s.deviceLog ∧ Sequential { devices := true } s t := by
  have hsome : s.deviceAt a = some d := State.deviceAt_eq_some.2 hdevice
  obtain ⟨t, hexec, -, hlog, hseq⟩ := guarded_store (ws := [a]) (w := { devices := true }) hp (by simp [hdevice])
    (Frame.storeWord _ s a w (by simp [hsome]) (fun _ => rfl)) (by simp) (by simp)
  rw [State.storeWord_device hsome, State.logAccess_deviceLog] at hlog
  exact ⟨t, hexec, hlog, hseq⟩

/-- `srw` of a register a device answers for (10_state.md R58, 48_misc_system.md R372). -/
theorem exec_srw_device (hp : s.pred p = true) (src : Reg) {r : SrAddr} (h : s.srDevice r = some d) :
    ∃ t, exec (.srw p src r) s = .next t ∧ t.deviceLog = ⟨d, s.draws, .writeSr r (s.reg src)⟩ :: s.deviceLog ∧
      Sequential { devices := true } s t := by
  have hexec : exec (.srw p src r) s = guarded p s (.next (s.storeSr r (s.reg src)).advance) := rfl
  rw [hexec, guarded_true hp, State.storeSr_device h, retired_next]
  exact ⟨_, rfl, rfl, .of_frame (Frame.logAccess _ s d _ rfl) (by simp) (by simp)⟩

end writes

/-- Settles O51: the word written, the dword written in one access or in two, and the status register written. -/
theorem deviceWrites : Obligations.DeviceWrites := by
  unfold Obligations.DeviceWrites
  intro p dst rs1 imm17 a d s hp ea low v seen told stored words
  have hlow : low = clearBit0 ea := (clearBit0_eq_ofNat ea).symm
  refine ⟨fun hdevice i w hi => ?_, fun hwf log hwrite => ?_, fun ha hlookup => ?_⟩
  · simp only [List.mem_cons, List.not_mem_nil, or_false, Prod.mk.injEq] at hi
    obtain ⟨rfl, rfl⟩ | ⟨rfl, rfl⟩ := hi
    · exact guarded_storeWord_device hp hdevice (v.extractLsb' 0 16)
    · exact guarded_storeWord_device hp hdevice (signedNarrow v)
  · have htold : (∀ c ∈ dwordAddrs ea, s.memoryAt c ≠ .absent) ∧ (s.storeDword ea v).deviceLog = log ∧
        stored (s.storeDword ea v) := by
      have htoldAt : told = wordWrite s := rfl
      rcases hwrite with ⟨hd0, hd1, rfl⟩ | ⟨hne, h0, h1, rfl⟩
      · have hstored : stored (s.storeDword ea v) :=
          ⟨fun h => absurd (hd0.symm.trans h) nofun, fun h => absurd (hd1.symm.trans h) nofun⟩
        rw [hlow] at hd0 hd1
        obtain ⟨hpresent, hlog⟩ := storeDword_one_device hd0 hd1 v
        exact ⟨hpresent, by simpa only [seen, hlow] using hlog, hstored⟩
      · rw [hlow] at hne h0 h1
        simpa only [stored, htoldAt, hlow] using storeDword_two_words hwf hne h0 h1 v
    obtain ⟨hpresent, rfl, hstored⟩ := htold
    have hwords : ∀ c ∈ dwordAddrs ea, s.deviceAt c = none → c ∈ words := by
      intro c hc hnone
      have hmem : c ∈ [low, low + 1] := by rwa [hlow]
      exact List.mem_filter.2 ⟨hmem, decide_eq_true (ram_of_deviceAt_none (hpresent c hc) hnone)⟩
    refine ⟨?_, ?_⟩
    · obtain ⟨t, hexec, hmem, hlog, hseq⟩ := guarded_store (w := { words := words, devices := true }) hp hpresent
        (Frame.storeDword _ s ea v hwords fun _ _ _ => rfl) (by simp) (by simp)
      refine ⟨t, hexec, hlog, ?_, hseq⟩
      simpa only [stored, hmem] using hstored
    · obtain ⟨t, hexec, hmem, hlog, hbase, hseq⟩ := guarded_push (words := words) (b := true) hp hpresent rs1
        (Frame.storeDword _ s ea v hwords fun _ _ _ => rfl) (by simp) (by simp) (by simp)
      refine ⟨t, hexec, hlog, ?_, hbase, hseq⟩
      simpa only [stored, hmem] using hstored
  · exact exec_srw_device hp dst (srDevice_of_lookup ha hlookup)

end Sys2Proof.Machine

/-! Proofs about 45_branch.md, 46_jump.md and 48_misc_system.md: branches, jumps, traps and status registers. -/

namespace Sys2Proof.Machine

/-! ### Targets as integers (45_branch.md R320, 46_jump.md R340) -/

/-- An address is its number. -/
theorem ofInt_toNat (a : Addr) : BitVec.ofInt 32 (a.toNat : Int) = a := by
  rw [BitVec.ofInt_natCast, BitVec.ofNat_toNat, BitVec.setWidth_eq]

/-- The target of a branch: the address after it plus twice the offset, with bit 0 cleared. -/
theorem branchTarget_eq (this : Addr) (imm17 : BitVec 17) :
    branchTarget this imm17 = BitVec.ofInt 32 (2 * (((this.toNat : Int) + 4 + 2 * imm17.toInt) / 2)) := by
  rw [← clearBit0_ofInt, BitVec.ofInt_add, BitVec.ofInt_add, ofInt_toNat, ← doubledOffset_eq]
  rfl

/-- The target of `jmp`: the base plus twice the offset, with bit 0 cleared. -/
theorem jumpTarget_absolute (this base : Addr) (imm17 : BitVec 17) :
    jumpTarget this base imm17 false = BitVec.ofInt 32 (2 * (((base.toNat : Int) + 2 * imm17.toInt + 0) / 2)) := by
  rw [← clearBit0_ofInt, add_zero, BitVec.ofInt_add, ofInt_toNat, ← doubledOffset_eq]
  rfl

/-- The target of `jr`: the same plus the address after the jump. -/
theorem jumpTarget_relative (this base : Addr) (imm17 : BitVec 17) :
    jumpTarget this base imm17 true =
      BitVec.ofInt 32 (2 * (((base.toNat : Int) + 2 * imm17.toInt + ((this.toNat : Int) + 4)) / 2)) := by
  rw [← clearBit0_ofInt, BitVec.ofInt_add, BitVec.ofInt_add, BitVec.ofInt_add, ofInt_toNat, ofInt_toNat,
    ← doubledOffset_eq]
  rfl

section executed
variable {p : Pred} {s : State}

/-- An executed branch whose truth value decides `c`. -/
theorem guarded_branch (hp : s.pred p = true) (imm17 : BitVec 17) {b : Bool} {c : Prop} (hc : b = true ↔ c) :
    ∃ t, guarded p s (.next (branchEffect b imm17 s)) = .next t ∧ Frame { regs := [1] } s t ∧
      t.instrs = s.instrs + 1 ∧
      (c → t.reg 1 = s.pc + 4 ∧
        t.pc = BitVec.ofInt 32 (2 * (((s.pc.toNat : Int) + 4 + 2 * imm17.toInt) / 2))) ∧
      (¬ c → t.reg 1 = s.reg 1 ∧ t.pc = s.pc + 4) := by
  have hframe := branchEffect_frame b imm17 s
  refine ⟨_, guarded_true hp _, hframe, ?_, fun h => ?_, fun h => ?_⟩
  · cases b <;> rfl
  · obtain ⟨-, hlink, hpc⟩ := link_spec s (branchTarget s.pc imm17)
    rw [hc.2 h, branchEffect_taken]
    exact ⟨hlink, hpc.trans (branchTarget_eq s.pc imm17)⟩
  · have hb : b = false := by simpa using fun hb => h (hc.1 hb)
    rw [hb, branchEffect_not_taken]
    exact ⟨rfl, rfl⟩

/-- An executed jump (46_jump.md R340). -/
theorem guarded_jump (hp : s.pred p = true) (rs1 : Reg) (imm17 : BitVec 17) (rel : Bool) :
    ∃ t, guarded p s (.next (jumpEffect rs1 imm17 rel s)) = .next t ∧ Frame { regs := [1] } s t ∧
      t.instrs = s.instrs + 1 ∧ t.reg 1 = s.pc + 4 ∧ t.pc = jumpTarget s.pc (s.reg rs1) imm17 rel := by
  obtain ⟨hframe, hlink, hpc⟩ := link_spec s (jumpTarget s.pc (s.reg rs1) imm17 rel)
  exact ⟨_, guarded_true hp _, hframe, rfl, hlink, hpc⟩

/-- An executed `iret` (46_jump.md R343). -/
theorem exec_iret (hp : s.pred p = true) : exec (.iret p) s = .next s.returnFromTrap.retire := guarded_true hp _

/-- An executed `trap` (48_misc_system.md R373). -/
theorem exec_trap (hp : s.pred p = true) (imm16 : BitVec 16) :
    exec (.trap p imm16) s = .next (s.takeTrap (trapNumber imm16) (nextPc s.pc)).retire := guarded_true hp _

end executed

/-! ### Branches and jumps -/

/-- Settles O52: the condition each of the nine branches decides. -/
theorem branchInstructions : Obligations.BranchInstructions := by
  unfold Obligations.BranchInstructions
  intro p rs1 rs2 imm17 s hp val a b i c hi
  simp only [List.mem_cons, List.not_mem_nil, or_false, Prod.mk.injEq] at hi
  obtain ⟨rfl, rfl⟩ | ⟨rfl, rfl⟩ | ⟨rfl, rfl⟩ | ⟨rfl, rfl⟩ | ⟨rfl, rfl⟩ | ⟨rfl, rfl⟩ | ⟨rfl, rfl⟩ | ⟨rfl, rfl⟩ |
    ⟨rfl, rfl⟩ := hi
  · exact guarded_branch hp imm17 Iff.rfl
  · exact guarded_branch hp imm17 (Bool.not_eq_true' s.carry).to_iff
  · exact guarded_branch hp imm17 (cmpEq_iff a b)
  · exact guarded_branch hp imm17 (not_cmpEq_iff a b)
  · exact guarded_branch hp imm17 (cmpLt_iff a b)
  · exact guarded_branch hp imm17 (not_cmpLt_iff a b)
  · exact guarded_branch hp imm17 (cmpGt_iff a b)
  · exact guarded_branch hp imm17 (not_cmpGt_iff a b)
  · exact guarded_branch hp imm17 (iff_true_intro rfl)

/-- Settles O53: `guarded_jump` with the target of each of the two jumps. -/
theorem jumpInstructions : Obligations.JumpInstructions := by
  unfold Obligations.JumpInstructions
  intro p rs1 imm17 s hp i base hi
  simp only [List.mem_cons, List.not_mem_nil, or_false, Prod.mk.injEq] at hi
  obtain ⟨rfl, rfl⟩ | ⟨rfl, rfl⟩ := hi
  · rw [← jumpTarget_absolute s.pc]
    exact guarded_jump hp rs1 imm17 false
  · rw [← jumpTarget_relative]
    exact guarded_jump hp rs1 imm17 true

/-- Settles O54: the return from a trap is the whole effect. -/
theorem interruptReturn : Obligations.InterruptReturn := by
  unfold Obligations.InterruptReturn
  intro p s hp
  exact ⟨_, exec_iret hp, returnFromTrap_frame s, rfl, rfl, clearBit0_eq_ofNat s.pcSave⟩

/-! ### Traps -/

/-- Settles O59: the trap entry is the whole effect, and the vector of every trap number lies in the address space. -/
theorem trapInstruction : Obligations.TrapInstruction := by
  unfold Obligations.TrapInstruction
  intro p imm16 s hp
  have hnumber : trapNumber imm16 = imm16.toNat % 256 := rfl
  have hvector : 8 * (imm16.toNat % 256) < 2 ^ 32 := by omega
  rw [← hnumber] at hvector ⊢
  exact ⟨_, exec_trap hp imm16, takeTrap_frame s _ _, rfl, rfl, rfl, rfl, takeTrap_pc_toNat s (nextPc s.pc) hvector⟩

/-- Settles O60: the address `trap` saved is even already, so that `iret` goes to it itself. -/
theorem trapThenReturn : Obligations.TrapThenReturn := by
  unfold Obligations.TrapThenReturn
  intro p q imm16 s t u hp hq heven ht hu
  rw [exec_trap hp] at ht
  cases ht
  have hq' : (s.takeTrap (trapNumber imm16) (nextPc s.pc)).retire.pred q = true := hq
  rw [exec_iret hq'] at hu
  cases hu
  refine ⟨clearBit0_of_even (even_add_four heven), rfl, ?_, ?_⟩
  · show s.instrs + 1 + 1 = s.instrs + 2
    rw [BitVec.add_assoc]
    rfl
  · constructor <;> simp

/-! ### `nop` and the status registers (48_misc_system.md R370 to R372) -/

/-- Settles O55: `nop` has no effect of its own. -/
theorem noOperation : Obligations.NoOperation := by
  unfold Obligations.NoOperation
  intro p s hp
  exact ⟨_, guarded_true hp _, .of_frame (Frame.refl _ s) rfl rfl, rfl⟩

/-- No device answers for a register of base AA32, or for one that `EXTRA_SR` does not define (10_state.md R57). -/
theorem srDevice_eq_none {s : State} {a : SrAddr} (h : a.toNat < 12 ∨ s.extraSr.lookup a = none) :
    s.srDevice a = none := by
  by_cases hbase : a.toNat < 12
  · exact s.srDevice_of_lt hbase
  · exact (if_neg hbase).trans (h.resolve_left hbase)

/-- An address beyond base AA32 reads 0 (10_state.md R57). -/
theorem readSr_of_ge (s : State) {a : SrAddr} (h : 12 ≤ a.toNat) : readSr s a = 0 := by
  unfold readSr
  split <;> first | rfl | omega

/-- A single-bit register reads 0 or 1 (10_state.md R57). -/
theorem zeroExtend_ofBool (b : Bool) : (BitVec.ofBool b).zeroExtend 32 = if b then (1 : Dword) else 0 := by
  cases b <;> rfl

/-- Settles O56: the register at each address. -/
theorem statusRegisterRead : Obligations.StatusRegisterRead := by
  unfold Obligations.StatusRegisterRead
  intro p dst a s hp hbase
  refine ⟨_, readSr s a, exec_srr_base hp dst (srDevice_eq_none hbase), s.setReg_reg_same dst _,
    .of_frame (Frame.setReg _ s dst _ (by simp)) rfl rfl, fun n x hnx ha => ?_, readSr_of_ge s⟩
  have haddr : a = BitVec.ofNat 16 n := by rw [← ha, BitVec.ofNat_toNat, BitVec.setWidth_eq]
  simp only [List.mem_cons, List.not_mem_nil, or_false, Prod.mk.injEq] at hnx
  obtain ⟨rfl, rfl⟩ | ⟨rfl, rfl⟩ | ⟨rfl, rfl⟩ | ⟨rfl, rfl⟩ | ⟨rfl, rfl⟩ | ⟨rfl, rfl⟩ | ⟨rfl, rfl⟩ | ⟨rfl, rfl⟩ |
    ⟨rfl, rfl⟩ | ⟨rfl, rfl⟩ | ⟨rfl, rfl⟩ | ⟨rfl, rfl⟩ := hnx <;> rw [haddr]
  case inr.inr.inr.inl => exact zeroExtend_ofBool s.ien
  case inr.inr.inr.inr.inr.inr.inr.inr.inr.inl => exact zeroExtend_ofBool s.carry
  case inr.inr.inr.inr.inr.inr.inr.inr.inr.inr.inl => exact zeroExtend_ofBool s.acarry
  all_goals rfl

section writeSr
variable (s : State) (a : SrAddr) (v : Dword)

/-- The register addressed takes the value, a single-bit one its bit 0 (10_state.md R58). -/
theorem writeSr_fields :
    (writeSr s a v).ien = (if a = 3 then v.getLsbD 0 else s.ien) ∧
      (writeSr s a v).cycles = (if a = 4 then v else s.cycles) ∧
      (writeSr s a v).instrs = (if a = 5 then v else s.instrs) ∧
      (writeSr s a v).mulms = (if a = 6 then v else s.mulms) ∧
      (writeSr s a v).divmsi = (if a = 7 then v else s.divmsi) ∧
      (writeSr s a v).divmso = (if a = 8 then v else s.divmso) ∧
      (writeSr s a v).carry = (if a = 9 then v.getLsbD 0 else s.carry) ∧
      (writeSr s a v).acarry = (if a = 10 then v.getLsbD 0 else s.acarry) ∧
      (writeSr s a v).pcSave = (if a = 11 then v else s.pcSave) := by
  simp only [← BitVec.toNat_inj]
  unfold writeSr
  split <;> simp_all

/-- A write of a status register leaves the rest of the state alone (10_state.md R58). -/
theorem writeSr_rest :
    (∀ r, (writeSr s a v).reg r = s.reg r) ∧ (∀ q, (writeSr s a v).pred q = s.pred q) ∧
      (writeSr s a v).mem = s.mem ∧ (writeSr s a v).irqs = s.irqs ∧ (writeSr s a v).deviceLog = s.deviceLog ∧
      (writeSr s a v).memoryMap = s.memoryMap ∧ (writeSr s a v).extraSr = s.extraSr ∧
      (writeSr s a v).draws = s.draws := by
  unfold writeSr
  split <;> exact ⟨fun _ => rfl, fun _ => rfl, rfl, rfl, rfl, rfl, rfl, rfl⟩

end writeSr

/-- Settles O57: `writeSr_fields` and `writeSr_rest`, and the count that follows. -/
theorem statusRegisterWrite : Obligations.StatusRegisterWrite := by
  unfold Obligations.StatusRegisterWrite
  intro p src a s hp hbase
  obtain ⟨hien, hcycles, hinstrs, hmulms, hdivmsi, hdivmso, hcarry, hacarry, hpcSave⟩ :=
    writeSr_fields s a (s.reg src)
  refine ⟨_, exec_srw_base hp src (srDevice_eq_none hbase), ?_, hien, hcycles, ?_, hmulms, hdivmsi, hdivmso, hcarry,
    hacarry, hpcSave, writeSr_rest s a (s.reg src)⟩
  · show nextPc (writeSr s a (s.reg src)).pc = s.pc + 4
    rw [writeSr_pc, nextPc_eq]
  · show (writeSr s a (s.reg src)).instrs + 1 = _
    rw [hinstrs]

end Sys2Proof.Machine
